-- ==== Sys2Proof/Word.lean ====
section
/-!
DEFINITION. Word.lean: the words, the bank names and the matrix values of crc32_combine_engine (spec 00 R5, R7, R10).
-/

namespace Sys2Proof

/-- A 32-bit value: a bus word, a scalar register, a GF(2) vector or one matrix row. Bit `i` is component `i` (R7, R55). -/
abbrev Word := BitVec 32

/-- One byte lane of a bus word (R55). -/
abbrev Byte := BitVec 8

/-- The two matrix banks: `MAT0` = EVEN and `MAT1` = ODD (R21). -/
inductive Bank where
  | mat0
  | mat1
  deriving DecidableEq, Repr

/-- The bank that is not this one. -/
def Bank.other : Bank → Bank
  | .mat0 => .mat1
  | .mat1 => .mat0

/-- A GF(2) matrix value: exactly 32 rows of 32 bits, row `i` being the image of basis vector `i` (R10, R21). -/
abbrev Mat := Vector Word 32

end Sys2Proof
end

