-- ==== Sys2Proof/Syntax.lean ====
section
/-!
DEFINITION. Syntax.lean: the commands of spec/opcode_table.json, one constructor per row, and the raw fields of a
command word (R81, R83).
-/

namespace Sys2Proof

/-- The four commands (R83). Operands are in the order of the spec's mnemonics (R88): destination first for `msqr`. -/
inductive Instr where
  /-- `MVMUL s`: `RESULT <- apply(MAT[s], VEC)` (R105). -/
  | mvmul (s : Bank)
  /-- `MSQR d, s`: `MAT[d] <- square(MAT[s])` (R106). -/
  | msqr (d s : Bank)
  /-- `MINIT d`: `MAT[d] <- ODD0` (R107). -/
  | minit (d : Bank)
  /-- `COMBINE`: the CRC-32 combination of `CRC1`, `CRC2` and `LEN2` (R131). -/
  | combine
  deriving DecidableEq, Repr

/-- The fields of the one command format `CMDW`: `OP` = bits 3:0, `SRC` = bit 4, `DST` = bit 5, `RSV` = bits 31:6 (R81). -/
structure Cmdw where
  op  : BitVec 4
  src : BitVec 1
  dst : BitVec 1
  rsv : BitVec 26
  deriving DecidableEq, Repr

end Sys2Proof
end

