-- ==== Sys2Proof/WellFormed.lean ====
section
/-!
DEFINITION. WellFormed.lean: which raw field values form a legal command word (R85). Every term of `Instr` is well
formed, since a `Bank` has exactly the two values of a one-bit field; what can be ill formed is a `Cmdw`.
-/

namespace Sys2Proof.Cmdw

/-- R85 (a): `OP` is one of the four operation codes of R83. -/
def opDefined (c : Cmdw) : Bool := c.op == 1#4 || c.op == 2#4 || c.op == 3#4 || c.op == 4#4

/-- R85 (b): the reserved bits 31:6 are zero. -/
def rsvZero (c : Cmdw) : Bool := c.rsv == 0#26

/-- Does R83 give this `OP` a use for `SRC`? -/
def usesSrc (c : Cmdw) : Bool := c.op == 1#4 || c.op == 2#4

/-- Does R83 give this `OP` a use for `DST`? -/
def usesDst (c : Cmdw) : Bool := c.op == 2#4 || c.op == 3#4

/-- R85 (c): a bank field the operation does not use is zero. -/
def unusedZero (c : Cmdw) : Bool := (c.usesSrc || c.src == 0#1) && (c.usesDst || c.dst == 0#1)

/-- A command word is legal when none of R85 (a), (b), (c) holds. -/
def wellFormed (c : Cmdw) : Bool := c.opDefined && c.rsvZero && c.unusedZero

end Sys2Proof.Cmdw
end

