-- ==== Sys2Proof/Decode.lean ====
section
/-!
DEFINITION. Decode.lean: the decoder of command words, total and rejecting by name (R81 to R86), the encoder after it
(R83, R88), and the byte-lane view of a word (R55).
-/

namespace Sys2Proof

/-- Why a word is no command: the three cases of R85, and a byte list too short to hold a command word (R80). -/
inductive Illegal where
  /-- R85 (a): `OP` is 0x0 or 0x5 to 0xF. -/
  | opcode
  /-- R85 (b): a bit of `RSV` is 1. -/
  | reserved
  /-- R85 (c): a bank field that must be zero for this `OP` is 1. -/
  | mustBeZero
  /-- Fewer than the four bytes of one command word. -/
  | short
  deriving DecidableEq, Repr

/-- The bank a one-bit field names, without extension or scaling (R82). -/
def Bank.ofBit (b : BitVec 1) : Bank := if b = 0#1 then .mat0 else .mat1

/-- The one-bit field that names a bank: 0 is `MAT0`, 1 is `MAT1` (R81). -/
def Bank.bit : Bank → BitVec 1
  | .mat0 => 0#1
  | .mat1 => 1#1

/-- The fields of a command word (R81). -/
def Cmdw.ofWord (w : Word) : Cmdw where
  op  := w.extractLsb' 0 4
  src := w.extractLsb' 4 1
  dst := w.extractLsb' 5 1
  rsv := w.extractLsb' 6 26

/-- The command word with these fields, most significant field first (R81). -/
def Cmdw.toWord (c : Cmdw) : Word := c.rsv ++ c.dst ++ c.src ++ c.op

/-- The command these fields stand for, by the opcode map of R83. -/
def Cmdw.decode (c : Cmdw) : Except Illegal Instr :=
  if c.rsv ≠ 0#26 then .error .reserved
  else if c.op = 1#4 then
    if c.dst = 0#1 then .ok (.mvmul (Bank.ofBit c.src)) else .error .mustBeZero
  else if c.op = 2#4 then .ok (.msqr (Bank.ofBit c.dst) (Bank.ofBit c.src))
  else if c.op = 3#4 then
    if c.src = 0#1 then .ok (.minit (Bank.ofBit c.dst)) else .error .mustBeZero
  else if c.op = 4#4 then
    if c.src = 0#1 ∧ c.dst = 0#1 then .ok .combine else .error .mustBeZero
  else .error .opcode

/-- The decoder of `CMD` (R86): a legal word gives its command, any other word is rejected by name. -/
def decode (w : Word) : Except Illegal Instr := (Cmdw.ofWord w).decode

/-- The decoder's answer without the name of the rejection. -/
def decodeWord (w : Word) : Option Instr := (decode w).toOption

/-- A bus word from its byte lanes: lane `k` carries bits 8k+7 : 8k (R55). -/
def Word.ofLanes (b0 b1 b2 b3 : Byte) : Word := b3 ++ b2 ++ b1 ++ b0

/-- The byte lanes of a bus word, lane 0 first (R55). -/
def Word.lanes (w : Word) : List Byte :=
  [w.extractLsb' 0 8, w.extractLsb' 8 8, w.extractLsb' 16 8, w.extractLsb' 24 8]

/-- The decoder on byte lanes: one command word is the first four bytes (R80, R55; log entry 16). -/
def decodeBytes : List Byte → Except Illegal (Instr × List Byte)
  | b0 :: b1 :: b2 :: b3 :: rest => (decode (Word.ofLanes b0 b1 b2 b3)).map (·, rest)
  | _ => .error .short

/-- The one bus word that holds an instruction of `nbits` bits with bits `w`; none if the bits do not fit one word. -/
def tableWord (nbits w : Nat) : Option Word :=
  if w % 2 ^ nbits < 2 ^ 32 then some (BitVec.ofNat 32 (w % 2 ^ nbits)) else none

/-- The instruction the decoder reads from the opcode table's numbering of its bits. -/
def decodeTableWord (nbits w : Nat) : Option Instr := (tableWord nbits w).bind decodeWord

/-- The fields of a command's word: R83's `OP`, the bank fields it uses, zero everywhere else. -/
def Instr.fields : Instr → Cmdw
  | .mvmul s  => { op := 1#4, src := s.bit, dst := 0#1,   rsv := 0#26 }
  | .msqr d s => { op := 2#4, src := s.bit, dst := d.bit, rsv := 0#26 }
  | .minit d  => { op := 3#4, src := 0#1,   dst := d.bit, rsv := 0#26 }
  | .combine  => { op := 4#4, src := 0#1,   dst := 0#1,   rsv := 0#26 }

/-- The encoder: the word the host writes to `CMD` for a command (R83, R88). -/
def encode (i : Instr) : Word := i.fields.toWord

end Sys2Proof
end

