-- ==== Sys2Proof/Config.lean ====
section
/-!
DEFINITION. Config.lean: the parameters the spec fixes (R5, R6), the ones it leaves OPEN, and the free values.
An open parameter or free value is a constant with no body: no proof can see which value it has.
-/

namespace Sys2Proof.Config

/-- `POLY`, the reflected CRC-32 polynomial (R5). -/
def poly : Word := 0xEDB88320#32

/-- The register window's size in bytes (R6, R50). -/
def windowSize : Nat := 0x200

/-- Which multiple of 0x200 the platform chose for the window (R51: `BASE` is OPEN; log entry 1). -/
opaque baseIndex : Nat

/-- `BASE`, the window's byte address: an OPEN multiple of 0x200 (R51; log entry 1). -/
def base : Nat := windowSize * baseIndex

/-- The free draws, by draw number: what a bank row or `PENDING` holds after reset (I1, I6) and what a read of
`RESULT` or a bank row returns while BUSY (I2). The spec constrains none of them (log entries 5 and 6). -/
opaque freeWord : Nat → Word

/-- `LAT`, by draw number: how many host accesses come between an accepted command and its perform step. Any finite
number, zero included (R187, I3; log entry 2). -/
opaque latency : Nat → Nat

end Sys2Proof.Config
end

