-- ==== Sys2Proof/Machine/State.lean ====
section
/-!
DEFINITION. Machine/State.lean: the state of the block (spec 10_state.md), the host's operations and the block's
answers to them, and why a step can stop.
-/

namespace Sys2Proof.Machine

/-- The engine phase (R30). -/
inductive Phase where
  | idle
  | busy
  deriving DecidableEq, Repr

/-- The named registers of the window (R52). A reserved offset names none. -/
inductive Reg where
  | cmd
  | status
  | crc1
  | crc2
  | len2Lo
  | len2Hi
  | vec
  | result
  /-- `MAT[b][n]`, row `n` of bank `b`. -/
  | row (b : Bank) (n : Fin 32)
  deriving DecidableEq, Repr

/-- One bus transaction of the host: an address, a width in bytes and, for a write, the word on the 32-bit data bus
(R9 `MemRead`, `MemWrite`; R6). -/
inductive Access where
  | read  (addr size : Nat)
  | write (addr size : Nat) (v : Word)
  deriving DecidableEq, Repr

/-- What the world outside the block does next (R20, R60, R180, R88). -/
inductive HostOp where
  /-- One bus transaction. -/
  | access (a : Access)
  /-- The host's `WAIT_IDLE` loop: read `STATUS`, and again while bit 0 is 1 (R88; log entry 8). -/
  | waitIdle
  /-- Reset, perhaps beside an access in progress, which then has no effect (R180, R181; log entry 13). -/
  | reset (lost : Option Access)
  deriving DecidableEq, Repr

/-- How the block answers a bus transaction. -/
inductive Response where
  /-- A legal read's data. -/
  | data (w : Word)
  /-- A legal write is complete. -/
  | ack
  /-- The error response of R154. -/
  | busError
  deriving DecidableEq, Repr

/-- The state of the machine: the block's own state (R21 to R30, R33), then the model's fields (log entry 17). -/
structure State where
  /-- `MAT0`, role EVEN (R21). -/
  mat0 : Mat
  /-- `MAT1`, role ODD (R21). -/
  mat1 : Mat
  /-- `CRC1` (R23). -/
  crc1 : Word
  /-- `CRC2` (R24). -/
  crc2 : Word
  /-- `LEN2_LO`, bits 31:0 of `LEN2` (R25). -/
  len2Lo : Word
  /-- `LEN2_HI`, bits 63:32 of `LEN2` (R25). -/
  len2Hi : Word
  /-- `VEC` (R26). -/
  vec : Word
  /-- `RESULT` (R27). -/
  result : Word
  /-- `STATUS.DONE` (R29). -/
  done : Bool
  /-- `STATUS.CMDERR` (R29). -/
  cmderr : Bool
  /-- `STATUS.OVR` (R29). -/
  ovr : Bool
  /-- The engine phase; `STATUS.BUSY` is its view (R30). -/
  phase : Phase
  /-- `PENDING`, the latched command word (R30). Between commands it keeps its word (DESIGN CHOICE, log entry 20). -/
  pending : Word
  /-- Model field: host accesses still to come before the perform step (`LAT`, R187; log entry 2). -/
  wait : Nat
  /-- Model field: how many free values have been drawn (log entries 5 and 6). -/
  draws : Nat
  /-- Model field: the host's operations still to come, in the order the block receives them (R60, R63; log entry 7). -/
  inputs : List HostOp
  /-- Model field: the block's answers to the host, newest first (log entry 7). -/
  responses : List Response
  deriving DecidableEq, Repr

/-- Why the machine stops with a fault. -/
inductive Fault where
  /-- Raised by the host's turn on an access at an address outside the window, which the block does not decode (R50).
  Safe: the block itself would do nothing (log entry 4). -/
  | outsideWindow (addr : Nat)
  deriving DecidableEq, Repr

/-- Why the machine refuses. -/
inductive Refusal where
  /-- Raised by `exec` for an instruction that has no meaning yet; no arm does. Safe. -/
  | notModelled (mnemonic : String)
  /-- Raised by `step` when the engine's turn finds a `PENDING` that is no command, in a state no run reaches: only legal
  words are latched (R86). Safe (log entry 9). -/
  | pendingIllegal (w : Word)
  deriving DecidableEq, Repr

/-- How many free values one reset draws: 32 rows of each bank and `PENDING`. -/
def resetDraws : Nat := 65

/-- The state after reset (R33, R180): the scalars and `STATUS` are 0, the phase is IDLE, both banks and `PENDING` are free
draws numbered from `draws` on (log entry 5). -/
def State.afterReset (draws : Nat) (inputs : List HostOp) (responses : List Response) : State where
  mat0 := Vector.ofFn fun n => Config.freeWord (draws + n.val)
  mat1 := Vector.ofFn fun n => Config.freeWord (draws + 32 + n.val)
  crc1 := 0#32
  crc2 := 0#32
  len2Lo := 0#32
  len2Hi := 0#32
  vec := 0#32
  result := 0#32
  done := false
  cmderr := false
  ovr := false
  phase := .idle
  pending := Config.freeWord (draws + 64)
  wait := 0
  draws := draws + resetDraws
  inputs := inputs
  responses := responses

/-- The machine right after reset, with no host operation yet to come and none answered (R33; log entries 11 and 17). -/
def State.reset : State := State.afterReset 0 [] []

end Sys2Proof.Machine
end

