-- ==== Sys2Proof/Machine/Flags.lean ====
section
/-!
DEFINITION. Machine/Flags.lean: the `STATUS` register (R29): its value as the host reads it and its write-one-to-clear.
-/

namespace Sys2Proof.Machine

/-- `STATUS.BUSY` reads 1 exactly when the phase is BUSY (R30). -/
def State.busy (s : State) : Bool := s.phase == .busy

/-- `STATUS` as a read returns it: `zext_32(OVR :: CMDERR :: DONE :: BUSY)` (R56). -/
def State.statusWord (s : State) : Word :=
  (BitVec.ofBool s.ovr ++ BitVec.ofBool s.cmderr ++ BitVec.ofBool s.done ++ BitVec.ofBool s.busy).setWidth 32

/-- A host write of `v` to `STATUS`: a 1 in bit 1, 2 or 3 clears DONE, CMDERR or OVR; every other bit is ignored (R56). -/
def State.clearStatus (v : Word) (s : State) : State :=
  { s with
    done   := s.done   && !v.getLsbD 1
    cmderr := s.cmderr && !v.getLsbD 2
    ovr    := s.ovr    && !v.getLsbD 3 }

end Sys2Proof.Machine
end

