-- ==== Sys2Proof/Machine/Operands.lean ====
section
/-!
DEFINITION. Machine/Operands.lean: the operand forms of the commands: a bank selected by a one-bit field (R81, R82), a
row of a bank (R9), and the 64-bit length (R25).
-/

namespace Sys2Proof.Machine

/-- `MAT[b]`, read (R9). -/
def State.bank (b : Bank) (s : State) : Mat :=
  match b with
  | .mat0 => s.mat0
  | .mat1 => s.mat1

/-- `MAT[b] <- m`, all 32 rows in one step (R9). -/
def State.setBank (b : Bank) (m : Mat) (s : State) : State :=
  match b with
  | .mat0 => { s with mat0 := m }
  | .mat1 => { s with mat1 := m }

/-- `MAT[b][n]`, read (R9). -/
def State.row (b : Bank) (n : Fin 32) (s : State) : Word := (s.bank b)[n]

/-- `MAT[b][n] <- v` (R9). -/
def State.setRow (b : Bank) (n : Fin 32) (v : Word) (s : State) : State := s.setBank b ((s.bank b).set n v)

/-- `LEN2 = LEN2_HI :: LEN2_LO`, 64 bits, unsigned (R25, R133). -/
def State.len2 (s : State) : BitVec 64 := s.len2Hi ++ s.len2Lo

end Sys2Proof.Machine
end

