-- ==== Sys2Proof/Machine/Ops.lean ====
section
/-!
DEFINITION. Machine/Ops.lean: the shared operations of the block: reporting an error (R151), accepting a command (R86),
completing one (R30), drawing a free value, reset (R180), and whose turn the next step is (R60).
-/

namespace Sys2Proof.Machine

/-- The block's three error conditions (R151). -/
inductive Condition where
  | cmderr
  | ovr
  | busError
  deriving DecidableEq, Repr

/-- A condition's code is its `STATUS` bit position; a bus error has no bit (R151). -/
def Condition.code : Condition → Option Nat
  | .cmderr => some 2
  | .ovr => some 3
  | .busError => none

/-- `raise`: record an error (R9, R151). The block has no trap: it sets one sticky status bit, or nothing for a bus error,
keeps no address or word, and carries on (R156). -/
def State.raise (c : Condition) (s : State) : State :=
  match c with
  | .cmderr => { s with cmderr := true }
  | .ovr => { s with ovr := true }
  | .busError => s

/-- Acceptance of a legal word: `PENDING <- w`, `phase <- BUSY`, `DONE <- 0` (R86), and `LAT` is drawn (R187). -/
def State.accept (w : Word) (s : State) : State :=
  { s with
    pending := w
    phase := .busy
    done := false
    wait := Config.latency s.draws
    draws := s.draws + 1 }

/-- A host write of `v` to `CMD` while IDLE: accept a legal word, report an illegal one (R86). -/
def State.writeCmd (v : Word) (s : State) : State :=
  match decodeWord v with
  | some _ => s.accept v
  | none => s.raise .cmderr

/-- The end of every perform step: `phase <- IDLE`, `DONE <- 1` (R30). That `PENDING` keeps its word between commands, where the
spec leaves it any value (I6), is a DESIGN CHOICE (log entry 20). -/
def State.complete (s : State) : State := { s with phase := .idle, done := true }

/-- One free draw: the value, and the state whose next draw is another one (I2). -/
def State.draw (s : State) : Word × State := (Config.freeWord s.draws, { s with draws := s.draws + 1 })

/-- Reset: every piece of the block's state takes its value of R33, and a pending command is abandoned (R180, R181). -/
def State.resetEvent (s : State) : State := State.afterReset s.draws s.inputs s.responses

/-- The command the engine has latched, if `PENDING` holds one (R30, R86). -/
def State.pendingInstr (s : State) : Option Instr := decodeWord s.pending

/-- Is the next step the engine's perform step? While BUSY it is, once `LAT` host accesses have come, or when no host
operation is left to come (R60, R187, R188; log entry 2). -/
def State.engineTurn (s : State) : Bool := s.busy && (s.wait == 0 || s.inputs.isEmpty)

end Sys2Proof.Machine
end

