-- ==== Sys2Proof/Machine/Bus.lean ====
section
/-!
DEFINITION. Machine/Bus.lean: the register window (R50 to R57) and the host's turn: one host operation taking effect
(R60), with the error conditions in the order of R155.
-/

namespace Sys2Proof.Machine

/-- A register's byte offset in the window (R52). -/
def Reg.offset : Reg → Nat
  | .cmd => 0x000
  | .status => 0x004
  | .crc1 => 0x008
  | .crc2 => 0x00C
  | .len2Lo => 0x010
  | .len2Hi => 0x014
  | .vec => 0x018
  | .result => 0x01C
  | .row .mat0 n => 0x100 + 4 * n.val
  | .row .mat1 n => 0x180 + 4 * n.val

/-- The register at an aligned offset of the window, none at a reserved offset (R52, R54). -/
def regAt (off : Nat) : Option Reg :=
  if off = 0x000 then some .cmd
  else if off = 0x004 then some .status
  else if off = 0x008 then some .crc1
  else if off = 0x00C then some .crc2
  else if off = 0x010 then some .len2Lo
  else if off = 0x014 then some .len2Hi
  else if off = 0x018 then some .vec
  else if off = 0x01C then some .result
  else if off < 0x100 then none
  else if off < 0x180 then some (.row .mat0 (Fin.ofNat 32 ((off - 0x100) / 4)))
  else some (.row .mat1 (Fin.ofNat 32 ((off - 0x180) / 4)))

/-- The address of a register: `BASE + offset(reg)` (R87). -/
def Reg.addr (r : Reg) : Nat := Config.base + r.offset

/-- The offset of an address inside the window; the block does not decode an address outside it (R50). -/
def windowOffset (addr : Nat) : Option Nat :=
  if Config.base ≤ addr ∧ addr < Config.base + Config.windowSize then some (addr - Config.base) else none

/-- The value a register holds, as an IDLE read returns it (R56). `CMD` holds none and reads 0 (R28). -/
def State.regValue (r : Reg) (s : State) : Word :=
  match r with
  | .cmd => 0#32
  | .status => s.statusWord
  | .crc1 => s.crc1
  | .crc2 => s.crc2
  | .len2Lo => s.len2Lo
  | .len2Hi => s.len2Hi
  | .vec => s.vec
  | .result => s.result
  | .row b n => s.row b n

/-- The registers whose read is unspecified while BUSY: `RESULT` and every bank row (R57 (b)). -/
def Reg.engineOwned : Reg → Bool
  | .result | .row _ _ => true
  | _ => false

/-- The registers whose write is dropped and raises OVR while BUSY (R57 (a), R153). -/
def Reg.guarded : Reg → Bool
  | .status | .result => false
  | _ => true

/-- A legal read (R56, R57): the value, and the state after it, which differs only when a free value was drawn. -/
def State.readReg (r : Option Reg) (s : State) : Word × State :=
  match r with
  | none => (0#32, s)
  | some r => if s.busy && r.engineOwned then s.draw else (s.regValue r, s)

/-- A legal write to a register while the block is IDLE (R56). -/
def State.writeIdle (r : Reg) (v : Word) (s : State) : State :=
  match r with
  | .cmd => s.writeCmd v
  | .status => s.clearStatus v
  | .crc1 => { s with crc1 := v }
  | .crc2 => { s with crc2 := v }
  | .len2Lo => { s with len2Lo := v }
  | .len2Hi => { s with len2Hi := v }
  | .vec => { s with vec := v }
  | .result => s
  | .row b n => s.setRow b n v

/-- A legal write (R56, R57): a guarded register's write is dropped while BUSY and raises OVR; a `CMD` word is then not
decoded. A write to a reserved offset is ignored (R54). -/
def State.writeReg (r : Option Reg) (v : Word) (s : State) : State :=
  match r with
  | none => s
  | some r => if s.busy && r.guarded then s.raise .ovr else s.writeIdle r v

/-- Is this the only legal access form: 32 bits wide and 4-byte aligned (R53)? -/
def legalForm (addr size : Nat) : Bool := size == 4 && addr % 4 == 0

/-- Why an access does not reach a register. -/
inductive AccessFault where
  /-- The address is not in the window (R50). -/
  | outsideWindow (addr : Nat)
  /-- BUSERR: wrong width or alignment, in the window (R154). -/
  | busError
  deriving DecidableEq, Repr

/-- The offset an access reaches, BUSERR being checked before anything is decoded (R53, R155). -/
def reach (addr size : Nat) : Except AccessFault Nat :=
  match windowOffset addr with
  | none => .error (.outsideWindow addr)
  | some off => if legalForm addr size then .ok off else .error .busError

/-- One bus transaction: the answer and the state after it, or the access's fault, which changes no state (R53). -/
def busAccess (a : Access) (s : State) : Except AccessFault (Response × State) :=
  match a with
  | .read addr size =>
    (reach addr size).map fun off => let (w, s') := s.readReg (regAt off); (.data w, s')
  | .write addr size v =>
    (reach addr size).map fun off => (.ack, s.writeReg (regAt off) v)

/-- The host receives an answer. -/
def State.respond (r : Response) (s : State) : State := { s with responses := r :: s.responses }

/-- The block receives one host access, the operations `rest` being still to come: one of the `LAT` accesses has passed. -/
def State.tick (rest : List HostOp) (s : State) : State := { s with inputs := rest, wait := s.wait - 1 }

/-- A host access takes effect. A bus error is an answer, and the block carries on (R154, R156; log entry 3); an access
outside the window is none of the block's (R50; log entry 4). -/
def hostAccess (a : Access) (rest : List HostOp) (s : State) : Host.Outcome State Fault Refusal :=
  match busAccess a (s.tick rest) with
  | .ok (r, s') => .next (s'.respond r)
  | .error .busError => .next (((s.tick rest).raise .busError).respond .busError)
  | .error (.outsideWindow addr) => .fault (.outsideWindow addr)

/-- One poll of `WAIT_IDLE`: a read of `STATUS`, and the loop goes on while bit 0 of the answer is 1 (R88; log entry 8). -/
def hostPoll (rest : List HostOp) (s : State) : Host.Outcome State Fault Refusal :=
  hostAccess (.read Reg.status.addr 4) (if s.statusWord.getLsbD 0 then .waitIdle :: rest else rest) s

/-- The host's turn: its next operation takes effect; with none left the block does nothing (R60, R161). -/
def hostTurn (s : State) : Host.Outcome State Fault Refusal :=
  match s.inputs with
  | [] => .next s
  | .access a :: rest => hostAccess a rest s
  | .waitIdle :: rest => hostPoll rest s
  | .reset _ :: rest => .next ({ s with inputs := rest }).resetEvent

end Sys2Proof.Machine
end

