-- ==== Sys2Proof/Machine/Gf2.lean ====
section
/-!
DEFINITION. Machine/Gf2.lean: the pure functions of the GF(2) matrix engine (R10, R100, R102, R104, R108).
-/

namespace Sys2Proof.Machine

/-- `apply(M, v)`: for `i` from 0 to 31, XOR row `i` into an accumulator that starts at 0 when bit `i` of `v` is 1 (R100). -/
def gf2Apply (m : Mat) (v : Word) : Word :=
  (List.finRange 32).foldl (fun acc (i : Fin 32) => if v.getLsbD i.val then acc ^^^ m[i] else acc) 0#32

/-- `square(M)`: row `n` of the result is `apply(M, M.row[n])`, every `apply` reading the original `M` (R102, R103). -/
def gf2Square (m : Mat) : Mat := Vector.ofFn fun n => gf2Apply m m[n]

/-- `ODD0`, the operator for one zero bit: row 0 is `POLY`, row `n` is `1 << (n - 1)` (R104). -/
def odd0 : Mat := Vector.ofFn fun n => if n.val = 0 then Config.poly else 1#32 <<< (n.val - 1)

/-- `I`, the identity matrix: row `n` is `1 << n` (R10). -/
def gf2Identity : Mat := Vector.ofFn fun n => 1#32 <<< n.val

/-- The all-zero matrix (a corner case of R106). -/
def gf2Zero : Mat := Vector.ofFn fun _ => 0#32

/-- `k` applications of `apply(P, ·)`: the effect of shifting `k` zero bits into the CRC register (R10, R108). -/
def shiftBits (k : Nat) (v : Word) : Word := (gf2Apply odd0)^[k] v

/-- `P^k` as a matrix: row `n` is the image of the `n`-th basis vector under `k` applications of `P = ODD0` (R10). -/
def oddPower (k : Nat) : Mat := Vector.ofFn fun n => shiftBits k (1#32 <<< n.val)

end Sys2Proof.Machine
end

