-- ==== Sys2Proof/Machine/Combine.lean ====
section
/-!
DEFINITION. Machine/Combine.lean: the meaning of COMBINE, one perform step (R131). Its working values `c` and `n` and the
two scratch banks live in a record local to the step (R31).
-/

namespace Sys2Proof.Machine

/-- COMBINE's working values: the banks in their roles EVEN = `MAT[0]` and ODD = `MAT[1]`, the running CRC `c` and the length
counter `n` (R31 (b), R131). -/
structure CombineRegs where
  even : Mat
  odd : Mat
  c : Word
  n : BitVec 64
  deriving DecidableEq, Repr

/-- R131 before the loop: `MAT[1] <- ODD0`, `MAT[0] <- square(MAT[1])`, `MAT[1] <- square(MAT[0])`. -/
def combineSetup (c : Word) (n : BitVec 64) : CombineRegs :=
  let even := gf2Square odd0
  { even := even, odd := gf2Square even, c := c, n := n }

/-- A pass of R131's loop that writes `MAT[0]`: square, apply if bit 0 of `n` is 1, shift `n`. -/
def combinePassEven (r : CombineRegs) : CombineRegs :=
  let m := gf2Square r.odd
  { r with even := m, c := if r.n.getLsbD 0 then gf2Apply m r.c else r.c, n := r.n >>> 1 }

/-- A pass of R131's loop that writes `MAT[1]`. -/
def combinePassOdd (r : CombineRegs) : CombineRegs :=
  let m := gf2Square r.even
  { r with odd := m, c := if r.n.getLsbD 0 then gf2Apply m r.c else r.c, n := r.n >>> 1 }

/-- The first `k` passes of R131's loop, without its exit test: even passes write `MAT[0]`, odd passes `MAT[1]` (R134). -/
def combineRun : Nat → CombineRegs → CombineRegs
  | 0, r => r
  | k + 1, r => if k % 2 = 0 then combinePassEven (combineRun k r) else combinePassOdd (combineRun k r)

/-- R131's loop: two passes an iteration, leaving after the pass that makes `n` zero. The fuel counts iterations. -/
def combineLoop : Nat → CombineRegs → CombineRegs
  | 0, r => r
  | fuel + 1, r =>
    let r1 := combinePassEven r
    if r1.n = 0#64 then r1
    else
      let r2 := combinePassOdd r1
      if r2.n = 0#64 then r2 else combineLoop fuel r2

/-- A 64-bit counter that loses one bit a pass is zero after 64 passes, that is 32 iterations (R139; log entry 19). -/
def combineFuel : Nat := 32

/-- The whole value R131's main path computes from `CRC1` and a non-zero `LEN2`: set up, then loop. -/
def combineResult (c : Word) (n : BitVec 64) : CombineRegs := combineLoop combineFuel (combineSetup c n)

/-- R131's last line, with the scratch banks as the loop left them: `RESULT <- c ⊕ c2`. -/
def State.takeCombine (r : CombineRegs) (s : State) : State :=
  { s with mat0 := r.even, mat1 := r.odd, result := r.c ^^^ s.crc2 }

/-- `COMBINE` (R131). A zero length returns `CRC1`, whatever `CRC2` is, and writes no bank (R132). -/
def execCombine (s : State) : Host.Outcome State Fault Refusal :=
  if s.len2 = 0#64 then .next ({ s with result := s.crc1 }).complete
  else .next (s.takeCombine (combineResult s.crc1 s.len2)).complete

end Sys2Proof.Machine
end

