-- ==== Sys2Proof/Machine/Matrix.lean ====
section
/-!
DEFINITION. Machine/Matrix.lean: the meanings of MVMUL, MSQR and MINIT, each the whole perform step (R30, R105 to R107).
-/

namespace Sys2Proof.Machine

/-- `MVMUL b`: `RESULT <- apply(MAT[b], VEC)` (R105). -/
def execMvmul (b : Bank) (s : State) : Host.Outcome State Fault Refusal :=
  .next ({ s with result := gf2Apply (s.bank b) s.vec }).complete

/-- `MSQR d, b`: `MAT[d] <- square(MAT[b])`, the whole square being computed from the old bank (R103, R106). -/
def execMsqr (d b : Bank) (s : State) : Host.Outcome State Fault Refusal :=
  .next (s.setBank d (gf2Square (s.bank b))).complete

/-- `MINIT d`: `MAT[d] <- ODD0` (R107). -/
def execMinit (d : Bank) (s : State) : Host.Outcome State Fault Refusal :=
  .next (s.setBank d odd0).complete

end Sys2Proof.Machine
end

