-- ==== Sys2Proof/Machine/Dispatch.lean ====
section
/-! DEFINITION. Machine/Dispatch.lean: exec, the perform step of each command (R30, R86), one arm per constructor. -/

namespace Sys2Proof.Machine

-- The engine performs by OP (R86); every arm is the whole perform step of its command.
def exec (i : Instr) (s : State) : Host.Outcome State Fault Refusal :=
  match i with
  | .mvmul b => Sys2Proof.Machine.execMvmul b s
  | .msqr d b => Sys2Proof.Machine.execMsqr d b s
  | .minit d => Sys2Proof.Machine.execMinit d s
  | .combine => Sys2Proof.Machine.execCombine s

end Sys2Proof.Machine
end

