-- ==== Sys2Proof/Machine/Step.lean ====
section
/-!
DEFINITION. Machine/Step.lean: one step of the machine: the engine's perform step or one host operation, in the one total
order of R60.
-/

namespace Sys2Proof.Machine

/-- One step. On the engine's turn the latched command is performed, whole (R30); otherwise the host's next operation takes
effect (R60). -/
def step (s : State) : Host.Outcome State Fault Refusal :=
  if s.engineTurn then
    match s.pendingInstr with
    | some i => exec i s
    | none => .refused (.pendingIllegal s.pending)
  else hostTurn s

/-- The state with this instruction as the accepted command whose perform step is the very next step: `PENDING` holds its
word, the phase is BUSY, DONE is 0, and no host access is awaited (R86; log entry 11). -/
def State.withFetchWord (s : State) (nbits w : Nat) : State :=
  { s with pending := (tableWord nbits w).getD 0#32, phase := .busy, done := false, wait := 0 }

end Sys2Proof.Machine
end

