-- ==== Sys2Proof/Machine/HostProgram.lean ====
section
/-!
DEFINITION. Machine/HostProgram.lean: the host's bus transactions by register name (R87) and the pseudo-instructions, each
the list of host operations it expands to (R88).
-/

namespace Sys2Proof.Machine

/-- `W reg, v` (R87). -/
def writeOp (r : Reg) (v : Word) : HostOp := .access (.write r.addr 4 v)

/-- `R reg` (R87); the value read is the newest response. -/
def readOp (r : Reg) : HostOp := .access (.read r.addr 4)

/-- A command mnemonic: one write of its word to `CMD` (R88). -/
def commandOp (i : Instr) : HostOp := writeOp .cmd (encode i)

/-- `LOADM b, r0, …, r31`: 32 row writes, in order (R88). -/
def loadMatrix (b : Bank) (m : Mat) : List HostOp := (List.finRange 32).map fun n => writeOp (.row b n) m[n]

/-- `SETLEN x`: the low half, then the high half (R88). -/
def setLength (x : BitVec 64) : List HostOp :=
  [writeOp .len2Lo (x.extractLsb' 0 32), writeOp .len2Hi (x.extractLsb' 32 32)]

/-- `CLRSTAT`: clear DONE, CMDERR and OVR (R88). -/
def clearStatusOp : HostOp := writeOp .status 0x0000000E#32

/-- `CRC32_COMBINE c1, c2, x`: the operands, the command, the poll loop, the read of `RESULT` (R88, R89). -/
def crc32Combine (c1 c2 : Word) (x : BitVec 64) : List HostOp :=
  [writeOp .crc1 c1, writeOp .crc2 c2] ++ setLength x ++ [commandOp .combine, .waitIdle, readOp .result]

/-- The source's `apply(M, v)` from the primitives, through bank `b` (R89). -/
def applyProgram (b : Bank) (m : Mat) (v : Word) : List HostOp :=
  loadMatrix b m ++ [writeOp .vec v, commandOp (.mvmul b), .waitIdle, readOp .result]

/-- The source's `square(M)` from the primitives, from bank `b` into bank `d` (R89). -/
def squareProgram (d b : Bank) (m : Mat) : List HostOp :=
  loadMatrix b m ++ [commandOp (.msqr d b), .waitIdle] ++ (List.finRange 32).map fun n => readOp (.row d n)

/-- The state after a command is performed; a command that did not complete would leave the state as it was. -/
def after (i : Instr) (s : State) : State :=
  match exec i s with
  | .next t => t
  | .fault _ => s
  | .refused _ => s

/-- One loop pass of R138 by the host: `MSQR d, other`, then, when the length bit is set, `W VEC, c`; `MVMUL d`;
`c <- RESULT`. -/
def primitivePass (d : Bank) (bit : Bool) (c : Word) (s : State) : Word × State :=
  let s1 := after (.msqr d d.other) s
  if bit then
    let s2 := after (.mvmul d) { s1 with vec := c }
    (s2.result, s2)
  else (c, s1)

/-- R138's loop passes, writing `MAT[0]` and `MAT[1]` alternately until the length is used up; the fuel counts passes. -/
def primitiveLoop : Nat → Bank → Word → BitVec 64 → State → Word × State
  | 0, _, c, _, s => (c, s)
  | fuel + 1, d, c, n, s =>
    let (c1, s1) := primitivePass d (n.getLsbD 0) c s
    if n >>> 1 = 0#64 then (c1, s1) else primitiveLoop fuel d.other c1 (n >>> 1) s1

/-- The host's sequence of R138: `MINIT 1`; `MSQR 0, 1`; `MSQR 1, 0`; then the passes. It answers the running value `c`, which
the host keeps, and the state the commands leave. -/
def primitiveCombine (s : State) : Word × State :=
  primitiveLoop 64 .mat0 s.crc1 s.len2 (after (.msqr .mat1 .mat0) (after (.msqr .mat0 .mat1) (after (.minit .mat1) s)))

end Sys2Proof.Machine
end

