-- ==== Sys2Proof/Safety.lean ====
section
/-!
DEFINITION. Safety.lean: the terms claims are stated in: the engine's invariant (R29, R30, R86), accesses that keep to the
window (R50), the BUSY hazard (R184), what two states agree on, and the caller's CRC-32 (R136; log entry 18).
-/

namespace Sys2Proof.Machine

/-- The engine's invariant: while BUSY, `PENDING` holds a legal command (R86) and DONE is 0 (R29). -/
def State.engineInv (s : State) : Bool := !s.busy || (s.pendingInstr.isSome && !s.done)

/-- A host operation that accesses no address outside the window (R50). -/
def HostOp.inWindow : HostOp → Bool
  | .access (.read addr _) => (windowOffset addr).isSome
  | .access (.write addr _ _) => (windowOffset addr).isSome
  | .waitIdle => true
  | .reset _ => true

/-- The next step is the host's, and its operation is `op`, with `rest` to come after it. -/
abbrev HostNext (s : State) (op : HostOp) (rest : List HostOp) : Prop :=
  s.engineTurn = false ∧ s.inputs = op :: rest

/-- The state after a host access that is answered by `r` and changes nothing of the block's own state. -/
abbrev State.afterAccess (s : State) (rest : List HostOp) (r : Response) : State :=
  { s with inputs := rest, wait := s.wait - 1, responses := r :: s.responses }

/-- Would this host access, made while BUSY, break the hazard rule: write `CMD` or a data register, or read `RESULT` or a
row (R184)? -/
def Access.breaksBusyHazard : Access → Bool
  | .read addr _ => ((windowOffset addr).bind regAt).any Reg.engineOwned
  | .write addr _ _ => ((windowOffset addr).bind regAt).any Reg.guarded

/-- The states agree on the operand registers (R23 to R26). -/
abbrev SameOperands (s t : State) : Prop :=
  t.crc1 = s.crc1 ∧ t.crc2 = s.crc2 ∧ t.len2Lo = s.len2Lo ∧ t.len2Hi = s.len2Hi ∧ t.vec = s.vec

/-- The states agree on both banks and `RESULT`. -/
abbrev SameResults (s t : State) : Prop :=
  t.mat0 = s.mat0 ∧ t.mat1 = s.mat1 ∧ t.result = s.result

/-- The states agree on all the state the spec gives the block (R33). -/
abbrev SameBlock (s t : State) : Prop :=
  SameOperands s t ∧ SameResults s t ∧ t.done = s.done ∧ t.cmderr = s.cmderr ∧ t.ovr = s.ovr ∧ t.phase = s.phase ∧
    t.pending = s.pending

/-- The 64-bit length as a number: `LEN2_HI` holds bits 63:32, `LEN2_LO` bits 31:0 (R25). -/
abbrev State.lengthNat (s : State) : Nat := s.len2Hi.toNat * 2 ^ 32 + s.len2Lo.toNat

/-- A run of `k` steps of the machine that neither faults nor refuses. -/
abbrev RunsTo (k : Nat) (s t : State) : Prop := Host.Core.run core k s = .next t

end Sys2Proof.Machine

namespace Sys2Proof

/-- One bit step of the reflected CRC-32 update: shift right, XOR `POLY` in if the bit shifted out was 1 (R104). -/
def crcBit (c : Word) : Word := (c >>> 1) ^^^ (if c.getLsbD 0 then Config.poly else 0#32)

/-- One byte of the caller's CRC-32 (log entry 18). -/
def crcByte (c : Word) (b : Byte) : Word := crcBit^[8] (c ^^^ b.setWidth 32)

/-- The caller's CRC-32 of R136, with the conventions of GK2: initial value and final XOR 0xFFFFFFFF, reflected. It is no
part of the machine (log entry 18). -/
def crc32 (bytes : List Byte) : Word := bytes.foldl crcByte 0xFFFFFFFF#32 ^^^ 0xFFFFFFFF#32

end Sys2Proof
end

