-- ==== Sys2Proof/Certificates/Slice0/Obligations.lean ====
section
/-!
DEFINITION. Certificates/Slice0/Obligations.lean: the statements for the provers. Each docstring names the rule of spec/ it
formalises and the log entries it rests on. Some conventions of the model stand in most of them: whose step is next (engineTurn,
HostNext) and that an access counts towards `LAT` (afterAccess) have the form of log entry 2, the host's list of answers
that of log entry 7, and that `PENDING` keeps its word between commands (where the spec leaves it any value, I6) is log entry 20.
-/

open Sys2Proof Sys2Proof.Machine

/-! ### Encoding (spec 30) -/

/-- The words of R84's table and the expansions of R88, written out, against decoder and encoder. -/
def Obligations.CommandWordsReadAsWritten : Prop :=
  decodeTableWord 32 0x00000001 = some (.mvmul .mat0) ∧ decodeTableWord 32 0x00000011 = some (.mvmul .mat1) ∧
  decodeTableWord 32 0x00000012 = some (.msqr .mat0 .mat1) ∧ decodeTableWord 32 0x00000022 = some (.msqr .mat1 .mat0) ∧
  decodeTableWord 32 0x00000023 = some (.minit .mat1) ∧ decodeTableWord 32 0x00000004 = some .combine ∧
  decodeTableWord 32 0x00000014 = none ∧ decodeTableWord 32 0x80000004 = none ∧ decodeTableWord 32 0 = none ∧
  (∀ s : Bank, encode (.mvmul s) = 0x00000001#32 ||| (s.bit.setWidth 32 <<< 4)) ∧
  (∀ d s : Bank, encode (.msqr d s) = 0x00000002#32 ||| (s.bit.setWidth 32 <<< 4) ||| (d.bit.setWidth 32 <<< 5)) ∧
  (∀ d : Bank, encode (.minit d) = 0x00000003#32 ||| (d.bit.setWidth 32 <<< 5)) ∧
  encode .combine = 0x00000004#32

/-- R84: exactly nine words are commands, and they mean what its table says. -/
def Obligations.LegalWordsAreExactlyNine : Prop :=
  ∀ (w : Word) (i : Instr), decode w = .ok i ↔
    (w, i) ∈ [(0x00000001#32, Instr.mvmul .mat0), (0x00000011#32, .mvmul .mat1), (0x00000002#32, .msqr .mat0 .mat0),
      (0x00000012#32, .msqr .mat0 .mat1), (0x00000022#32, .msqr .mat1 .mat0), (0x00000032#32, .msqr .mat1 .mat1),
      (0x00000003#32, .minit .mat0), (0x00000023#32, .minit .mat1), (0x00000004#32, .combine)]

/-- Decode and encode agree both ways, on words, on byte lanes and on the opcode table's numbering (R81, R83, R88). -/
def Obligations.DecodeEncodeAgreeBothWays : Prop :=
  (∀ i : Instr, decode (encode i) = .ok i) ∧
  (∀ (w : Word) (i : Instr), decode w = .ok i → encode i = w) ∧
  (∀ (i : Instr) (rest : List Byte), decodeBytes ((encode i).lanes ++ rest) = .ok (i, rest)) ∧
  (∀ (w : Nat) (i : Instr), w < 2 ^ 32 → (decodeTableWord 32 w = some i ↔ (encode i).toNat = w))

/-- R81: the four fields lie where its table puts them, and a word is its fields. -/
def Obligations.CommandFieldsTileTheWord : Prop :=
  (∀ w : Word, (Cmdw.ofWord w).op.toNat = w.toNat % 16 ∧ (Cmdw.ofWord w).src.toNat = w.toNat / 16 % 2 ∧
    (Cmdw.ofWord w).dst.toNat = w.toNat / 32 % 2 ∧ (Cmdw.ofWord w).rsv.toNat = w.toNat / 64) ∧
  (∀ w : Word, (Cmdw.ofWord w).toWord = w) ∧ (∀ c : Cmdw, Cmdw.ofWord c.toWord = c)

/-- R85: a word is illegal exactly in the cases (a), (b), (c), and an illegal word written while IDLE sets CMDERR and
changes nothing else of the block (the count of accesses is log entry 2). -/
def Obligations.IllegalWordsAreRejected : Prop :=
  ∀ w : Word,
    ((∀ i, decode w ≠ .ok i) ↔
      (w.toNat % 16 = 0 ∨ 5 ≤ w.toNat % 16) ∨ w.toNat / 64 ≠ 0 ∨
      (w.toNat % 16 = 1 ∧ w.getLsbD 5 = true) ∨ (w.toNat % 16 = 3 ∧ w.getLsbD 4 = true) ∨
      (w.toNat % 16 = 4 ∧ (w.getLsbD 4 = true ∨ w.getLsbD 5 = true))) ∧
    ∀ (s : State) (rest : List HostOp), (∀ i, decode w ≠ .ok i) → s.phase = .idle → HostNext s (writeOp .cmd w) rest →
      step s = .next { s.afterAccess rest .ack with cmderr := true }

/-- R86: a write of `v` to `CMD` while BUSY sets OVR undecoded, while IDLE accepts a legal word and raises CMDERR on any other;
an accepted command is later performed by its `OP`. That acceptance draws `LAT` as `Config.latency s.draws`, and when the
perform step is due, is the model's choice (log entry 2). -/
def Obligations.CmdWriteDecodesAndAccepts : Prop :=
  (∀ (s : State) (rest : List HostOp) (v : Word), HostNext s (writeOp .cmd v) rest →
    let op := v.extractLsb' 0 4
    let legal := v.extractLsb' 6 26 = 0#26 ∧
      ((op = 1#4 ∧ v.getLsbD 5 = false) ∨ op = 2#4 ∨ (op = 3#4 ∧ v.getLsbD 4 = false) ∨
        (op = 4#4 ∧ v.getLsbD 4 = false ∧ v.getLsbD 5 = false))
    (s.phase = .busy → step s = .next { s.afterAccess rest .ack with ovr := true }) ∧
    (s.phase = .idle → ¬ legal → step s = .next { s.afterAccess rest .ack with cmderr := true }) ∧
    (s.phase = .idle → legal → step s = .next { s.afterAccess rest .ack with
      pending := v, phase := .busy, done := false, wait := Config.latency s.draws, draws := s.draws + 1 })) ∧
  (∀ s : State, s.engineTurn = true → ∀ i, decode s.pending = .ok i →
    step s = match i with
      | .mvmul b => execMvmul b s
      | .msqr d b => execMsqr d b s
      | .minit d => execMinit d s
      | .combine => execCombine s)

/-! ### The register window (spec 20) -/

/-- R52: every register's offset, and which offsets of the window name no register. -/
def Obligations.RegisterMapMatchesOffsets : Prop :=
  (regAt 0x000 = some .cmd ∧ regAt 0x004 = some .status ∧ regAt 0x008 = some .crc1 ∧ regAt 0x00C = some .crc2 ∧
    regAt 0x010 = some .len2Lo ∧ regAt 0x014 = some .len2Hi ∧ regAt 0x018 = some .vec ∧ regAt 0x01C = some .result) ∧
  (∀ n : Fin 32, regAt (0x100 + 4 * n.val) = some (.row .mat0 n) ∧ regAt (0x100 + 0x80 + 4 * n.val) = some (.row .mat1 n)) ∧
  (∀ r : Reg, regAt r.offset = some r ∧ r.offset < 0x200 ∧ r.offset % 4 = 0) ∧
  (∀ off, off < 0x200 → off % 4 = 0 → ((regAt off = none ↔ 0x020 ≤ off ∧ off ≤ 0x0FC) ∧
    ∀ r, regAt off = some r → r.offset = off))

/-- R56: every legal access while IDLE, by register. The draw of `LAT` at acceptance and the count of accesses are the model's
choice (log entry 2). -/
def Obligations.IdleAccessesReadAndWriteRegisters : Prop :=
  ∀ (s : State) (rest : List HostOp), s.phase = .idle →
    (∀ r : Reg, HostNext s (readOp r) rest → step s = .next (s.afterAccess rest (.data (match r with
      | .cmd => 0#32
      | .status => BitVec.ofNat 32 (8 * s.ovr.toNat + 4 * s.cmderr.toNat + 2 * s.done.toNat)
      | .crc1 => s.crc1
      | .crc2 => s.crc2
      | .len2Lo => s.len2Lo
      | .len2Hi => s.len2Hi
      | .vec => s.vec
      | .result => s.result
      | .row .mat0 n => s.mat0[n]
      | .row .mat1 n => s.mat1[n])))) ∧
    (∀ (r : Reg) (v : Word), HostNext s (writeOp r v) rest →
      let t := s.afterAccess rest .ack
      step s = .next (match r with
      | .cmd => match decode v with
        | .ok _ => { t with pending := v, phase := .busy, done := false, wait := Config.latency s.draws, draws := s.draws + 1 }
        | .error _ => { t with cmderr := true }
      | .status => { t with
          done := if v.getLsbD 1 then false else s.done
          cmderr := if v.getLsbD 2 then false else s.cmderr
          ovr := if v.getLsbD 3 then false else s.ovr }
      | .crc1 => { t with crc1 := v }
      | .crc2 => { t with crc2 := v }
      | .len2Lo => { t with len2Lo := v }
      | .len2Hi => { t with len2Hi := v }
      | .vec => { t with vec := v }
      | .result => t
      | .row .mat0 n => { t with mat0 := s.mat0.set n v }
      | .row .mat1 n => { t with mat1 := s.mat1.set n v })) ∧
    (∀ off, 0x020 ≤ off → off ≤ 0x0FC → off % 4 = 0 →
      (HostNext s (.access (.read (Config.base + off) 4)) rest → step s = .next (s.afterAccess rest (.data 0#32))) ∧
      ∀ v, HostNext s (.access (.write (Config.base + off) 4 v)) rest → step s = .next (s.afterAccess rest .ack))

/-- R57: every legal access while BUSY: (a) guarded writes are dropped and set OVR, (b) `RESULT` and row reads are free draws,
(c) other reads are as while IDLE, (d) `STATUS` writes are honoured, `RESULT` and reserved writes ignored. The numbering of the
free draws of (b) is the model's choice (log entry 6), as is the count of accesses (log entry 2). -/
def Obligations.BusyAccessesAreGuarded : Prop :=
  ∀ (s : State) (rest : List HostOp), s.phase = .busy →
    (∀ (r : Reg) (v : Word), r ≠ .status → r ≠ .result → HostNext s (writeOp r v) rest →
      step s = .next { s.afterAccess rest .ack with ovr := true }) ∧
    (∀ r : Reg, (r = .result ∨ ∃ b n, r = .row b n) → HostNext s (readOp r) rest →
      step s = .next { s.afterAccess rest (.data (Config.freeWord s.draws)) with draws := s.draws + 1 }) ∧
    (HostNext s (readOp .status) rest → step s = .next (s.afterAccess rest
      (.data (BitVec.ofNat 32 (8 * s.ovr.toNat + 4 * s.cmderr.toNat + 2 * s.done.toNat + 1))))) ∧
    (HostNext s (readOp .cmd) rest → step s = .next (s.afterAccess rest (.data 0#32))) ∧
    (HostNext s (readOp .crc1) rest → step s = .next (s.afterAccess rest (.data s.crc1))) ∧
    (HostNext s (readOp .crc2) rest → step s = .next (s.afterAccess rest (.data s.crc2))) ∧
    (HostNext s (readOp .len2Lo) rest → step s = .next (s.afterAccess rest (.data s.len2Lo))) ∧
    (HostNext s (readOp .len2Hi) rest → step s = .next (s.afterAccess rest (.data s.len2Hi))) ∧
    (HostNext s (readOp .vec) rest → step s = .next (s.afterAccess rest (.data s.vec))) ∧
    (∀ v, HostNext s (writeOp .status v) rest → step s = .next { s.afterAccess rest .ack with
      done := if v.getLsbD 1 then false else s.done
      cmderr := if v.getLsbD 2 then false else s.cmderr
      ovr := if v.getLsbD 3 then false else s.ovr }) ∧
    (∀ v, HostNext s (writeOp .result v) rest → step s = .next (s.afterAccess rest .ack)) ∧
    (∀ off, 0x020 ≤ off → off ≤ 0x0FC → off % 4 = 0 →
      (HostNext s (.access (.read (Config.base + off) 4)) rest → step s = .next (s.afterAccess rest (.data 0#32))) ∧
      ∀ v, HostNext s (.access (.write (Config.base + off) 4 v)) rest → step s = .next (s.afterAccess rest .ack))

/-- R54: a reserved offset reads zero and ignores writes, IDLE or BUSY, and is no bus error (the count of
accesses is log entry 2). -/
def Obligations.ReservedOffsetsReadZero : Prop :=
  ∀ (s : State) (rest : List HostOp) (off : Nat), 0x020 ≤ off → off ≤ 0x0FC → off % 4 = 0 →
    (HostNext s (.access (.read (Config.base + off) 4)) rest → step s = .next (s.afterAccess rest (.data 0#32))) ∧
    ∀ v, HostNext s (.access (.write (Config.base + off) 4 v)) rest → step s = .next (s.afterAccess rest .ack)

/-- R53, R154: an access of another width or alignment in the window is refused with the error response, and changes
nothing of the block, IDLE or BUSY. That the machine then goes on is deduced from R154 and R156 (log entry 3), and that the
access counts towards `LAT` is the model's choice (log entry 2). -/
def Obligations.BusErrorChangesNothing : Prop :=
  ∀ (s : State) (rest : List HostOp) (addr size : Nat), Config.base ≤ addr → addr < Config.base + 0x200 →
    (size ≠ 4 ∨ addr % 4 ≠ 0) →
    busAccess (.read addr size) s = .error .busError ∧ (∀ v, busAccess (.write addr size v) s = .error .busError) ∧
    (HostNext s (.access (.read addr size)) rest → step s = .next (s.afterAccess rest .busError)) ∧
    ∀ v, HostNext s (.access (.write addr size v)) rest → step s = .next (s.afterAccess rest .busError)

/-- The model's one fault: a step faults exactly when it is the host's and its access is outside the window (R50; the
model's choice, log entry 4). -/
def Obligations.FaultsOnlyOutsideTheWindow : Prop :=
  ∀ (s : State) (f : Fault), step s = .fault f ↔
    ∃ addr, f = .outsideWindow addr ∧ (addr < Config.base ∨ Config.base + 0x200 ≤ addr) ∧
      ∃ rest size, HostNext s (.access (.read addr size)) rest ∨ ∃ v, HostNext s (.access (.write addr size v)) rest

/-- R155: one access raises at most one condition; a bus error raises no status bit; no access made while BUSY raises
CMDERR; none made while IDLE raises OVR. -/
def Obligations.OneConditionPerAccess : Prop :=
  ∀ (s t : State) (a : Access) (rest : List HostOp), HostNext s (.access a) rest → step s = .next t →
    (t.responses.head? = some .busError → t.cmderr = s.cmderr ∧ t.ovr = s.ovr) ∧
    (s.phase = .busy → t.cmderr = true → s.cmderr = true) ∧
    (s.phase = .idle → t.ovr = true → s.ovr = true)

/-- R58: no read changes the block's state; repeating a write of the same value to a data register changes nothing more,
while IDLE and while BUSY. The counter of free draws is log entry 6; that `PENDING` keeps its word while IDLE is log entry 20. -/
def Obligations.ReadsAndRepeatedWritesAreIdempotent : Prop :=
  (∀ (s t : State) (addr size : Nat) (rest : List HostOp), HostNext s (.access (.read addr size)) rest →
    step s = .next t → SameBlock s t ∧ (s.phase = .idle → t.draws = s.draws)) ∧
  (∀ (s : State) (r : Reg) (v : Word) (rest : List HostOp), r ≠ .cmd → r ≠ .status → r ≠ .result →
    HostNext s (writeOp r v) (writeOp r v :: rest) →
    ∃ t, step s = .next t ∧ (t.engineTurn = false → ∃ u, step t = .next u ∧ SameBlock t u))

/-! ### Reset (spec 10 R33, spec 70) -/

/-- R33: the values right after reset; what it leaves UNSPECIFIED is a free draw (log entry 5). -/
def Obligations.ResetStateHoldsResetValues : Prop :=
  let s := State.reset
  s.crc1 = 0#32 ∧ s.crc2 = 0#32 ∧ s.len2Lo = 0#32 ∧ s.len2Hi = 0#32 ∧ s.vec = 0#32 ∧ s.result = 0#32 ∧
    s.statusWord = 0#32 ∧ s.phase = .idle ∧ s.regValue .cmd = 0#32 ∧
    ∀ n : Fin 32, s.mat0[n] = Config.freeWord n.val ∧ s.mat1[n] = Config.freeWord (32 + n.val)

/-- R180, R181: a reset, IDLE or BUSY, beside whatever access, gives every piece of state its reset value; the pending
command is abandoned and the block is ready for the next access. Two clauses are the model's choice: that the access in progress
gets no answer, on which the spec is silent (log entry 13), and the numbering of the free draws in the banks (log entry 5). -/
def Obligations.ResetEventGivesResetValues : Prop :=
  ∀ (s : State) (lost : Option Access) (rest : List HostOp), HostNext s (.reset lost) rest →
    ∃ t, step s = .next t ∧ t.crc1 = 0#32 ∧ t.crc2 = 0#32 ∧ t.len2Lo = 0#32 ∧ t.len2Hi = 0#32 ∧ t.vec = 0#32 ∧
      t.result = 0#32 ∧ t.done = false ∧ t.cmderr = false ∧ t.ovr = false ∧ t.phase = .idle ∧ t.statusWord = 0#32 ∧
      (∀ n : Fin 32, t.mat0[n] = Config.freeWord (s.draws + n.val) ∧
        t.mat1[n] = Config.freeWord (s.draws + 32 + n.val)) ∧
      t.engineTurn = false ∧ t.inputs = rest ∧ t.responses = s.responses

/-! ### The matrix functions (spec 40) -/

/-- R100, R22: bit `j` of `apply(M, v)` is the GF(2) sum over the set bits `i` of `v` of bit `j` of row `i`. -/
def Obligations.ApplyIsXorOfSelectedRows : Prop :=
  ∀ (m : Mat) (v : Word) (j : Nat), (gf2Apply m v).getLsbD j =
    decide (((List.finRange 32).filter fun i : Fin 32 => v.getLsbD i.val && (m[i]).getLsbD j).length % 2 = 1)

/-- R101 (b) to (f): the zero vector, stopping early, linearity, basis vectors, the identity. -/
def Obligations.ApplyIsLinear : Prop :=
  ∀ m : Mat, gf2Apply m 0#32 = 0#32 ∧
    (∀ (v : Word) (k : Nat), v >>> k = 0#32 → gf2Apply m v =
      ((List.finRange 32).take k).foldl (fun acc (i : Fin 32) => if v.getLsbD i.val then acc ^^^ m[i] else acc) 0#32) ∧
    (∀ a b : Word, gf2Apply m (a ^^^ b) = gf2Apply m a ^^^ gf2Apply m b) ∧
    (∀ i : Fin 32, gf2Apply m (1#32 <<< i.val) = m[i]) ∧
    (∀ v : Word, gf2Apply gf2Identity v = v)

/-- R102: each row of the square, and that the square acts as the matrix applied twice. -/
def Obligations.SquareActsTwice : Prop :=
  ∀ m : Mat, (∀ n : Fin 32, (gf2Square m)[n] = gf2Apply m m[n]) ∧
    ∀ v : Word, gf2Apply (gf2Square m) v = gf2Apply m (gf2Apply m v)

/-- R104: the rows of `ODD0`, and that it shifts one zero bit into the reflected CRC register. -/
def Obligations.OddZeroShiftsOneBit : Prop :=
  odd0[0] = 0xEDB88320#32 ∧ (∀ n : Fin 32, n.val ≠ 0 → odd0[n] = 1#32 <<< (n.val - 1)) ∧
    ∀ v : Word, gf2Apply odd0 v = (v >>> 1) ^^^ (if v.getLsbD 0 then 0xEDB88320#32 else 0#32)

/-- R108, R10: `P^1 = ODD0`; `P^(2k) = square(P^k)`; `apply(P^k, v)` is `k` zero bits shifted in; powers commute; the rows of
`P^8`. -/
def Obligations.PowersOfOddZero : Prop :=
  oddPower 1 = odd0 ∧ (∀ k : Nat, gf2Square (oddPower k) = oddPower (2 * k)) ∧
  (∀ (k : Nat) (v : Word), gf2Apply (oddPower k) v = shiftBits k v) ∧
  (∀ (a b : Nat) (v : Word), gf2Apply (oddPower a) (gf2Apply (oddPower b) v) = gf2Apply (oddPower (a + b)) v) ∧
  (oddPower 8).toList.take 8 = [0x77073096#32, 0xEE0E612C#32, 0x076DC419#32, 0x0EDB8832#32, 0x1DB71064#32, 0x3B6E20C8#32,
    0x76DC4190#32, 0xEDB88320#32] ∧
  (∀ n : Fin 32, 8 ≤ n.val → (oddPower 8)[n] = 1#32 <<< (n.val - 8))

/-! ### The commands (spec 40, 41) -/

/-- R105: MVMUL completes in every state; `RESULT` is the product and nothing else but `STATUS` changes; its words and corner
cases. That `PENDING` keeps its word is the model's choice (log entry 20). -/
def Obligations.MvmulWritesProduct : Prop :=
  ∀ (b : Bank) (s : State),
    exec (.mvmul b) s = .next { s with result := gf2Apply (s.bank b) s.vec, phase := .idle, done := true } ∧
    decode (match b with | .mat0 => 0x00000001#32 | .mat1 => 0x00000011#32) = .ok (.mvmul b) ∧
    (s.vec = 0#32 → exec (.mvmul b) s = .next { s with result := 0#32, phase := .idle, done := true }) ∧
    (∀ i : Fin 32, s.vec = 1#32 <<< i.val →
      exec (.mvmul b) s = .next { s with result := (s.bank b)[i], phase := .idle, done := true }) ∧
    (s.vec = 0xFFFFFFFF#32 → exec (.mvmul b) s =
      .next { s with result := (s.bank b).toList.foldl (· ^^^ ·) 0#32, phase := .idle, done := true }) ∧
    (s.bank b = gf2Identity → exec (.mvmul b) s = .next { s with result := s.vec, phase := .idle, done := true }) ∧
    (s.bank b = odd0 → s.vec = 3#32 →
      exec (.mvmul b) s = .next { s with result := 0xEDB88321#32, phase := .idle, done := true })

/-- R106, R103: MSQR completes in every state; the destination bank is the square of the old source bank, also in place, and
nothing else but `STATUS` changes; its words, corner cases and example. That `PENDING` keeps its word is the model's choice
(log entry 20). -/
def Obligations.MsqrWritesSquareOfOldBank : Prop :=
  (∀ (d b : Bank) (s : State), ∃ t, exec (.msqr d b) s = .next t ∧
    (∀ n : Fin 32, (t.bank d)[n] = gf2Apply (s.bank b) (s.bank b)[n]) ∧ t.bank d.other = s.bank d.other ∧
    SameOperands s t ∧ t.result = s.result ∧ t.phase = .idle ∧ t.done = true ∧ t.cmderr = s.cmderr ∧ t.ovr = s.ovr ∧
    t.pending = s.pending ∧ t.wait = s.wait ∧ t.draws = s.draws ∧ t.inputs = s.inputs ∧ t.responses = s.responses ∧
    (s.bank b = gf2Identity → t.bank d = gf2Identity) ∧ (s.bank b = gf2Zero → t.bank d = gf2Zero) ∧
    ((∀ n : Fin 32, (s.bank b)[n] = 0xFFFFFFFF#32) → t.bank d = gf2Zero) ∧
    (s.bank b = odd0 → (t.bank d)[0] = 0x76DC4190#32 ∧ (t.bank d)[1] = 0xEDB88320#32 ∧
      ∀ n : Fin 32, 2 ≤ n.val → (t.bank d)[n] = 1#32 <<< (n.val - 2))) ∧
  decode 0x00000002#32 = .ok (.msqr .mat0 .mat0) ∧ decode 0x00000012#32 = .ok (.msqr .mat0 .mat1) ∧
  decode 0x00000022#32 = .ok (.msqr .mat1 .mat0) ∧ decode 0x00000032#32 = .ok (.msqr .mat1 .mat1)

/-- R107: MINIT completes in every state; the destination bank is `ODD0`, whatever it held, and nothing else but `STATUS`
changes; its words and example. That `PENDING` keeps its word is the model's choice (log entry 20). -/
def Obligations.MinitLoadsOddZero : Prop :=
  (∀ s : State, exec (.minit .mat0) s = .next { s with mat0 := odd0, phase := .idle, done := true } ∧
    exec (.minit .mat1) s = .next { s with mat1 := odd0, phase := .idle, done := true }) ∧
  decode 0x00000003#32 = .ok (.minit .mat0) ∧ decode 0x00000023#32 = .ok (.minit .mat1) ∧
  decode 0x00000013#32 = .error .mustBeZero ∧
  odd0[0] = 0xEDB88320#32 ∧ odd0[1] = 0x00000001#32 ∧ odd0[31] = 0x40000000#32

/-- R132: for a zero length COMBINE returns `CRC1`, whatever `CRC2` holds, and writes no bank. That `PENDING` keeps its word
is the model's choice (log entry 20). -/
def Obligations.CombineZeroLengthReturnsFirst : Prop :=
  ∀ s : State, s.len2Lo = 0#32 → s.len2Hi = 0#32 →
    exec .combine s = .next { s with result := s.crc1, phase := .idle, done := true }

/-- R135, R132: COMBINE completes in every state with `apply(P^(8·LEN2), CRC1) ⊕ CRC2`, or `CRC1` for a zero length. -/
def Obligations.CombineResultIsClosedForm : Prop :=
  ∀ s : State, ∃ t, exec .combine s = .next t ∧
    (s.lengthNat ≠ 0 → t.result = gf2Apply (oddPower (8 * s.lengthNat)) s.crc1 ^^^ s.crc2) ∧
    (s.lengthNat = 0 → t.result = s.crc1)

/-- R134: the banks after COMBINE with a non-zero length, by the parity of the length's bit length. -/
def Obligations.CombineLeavesPowersInBanks : Prop :=
  ∀ s : State, s.lengthNat ≠ 0 → ∃ t, exec .combine s = .next t ∧
    (Nat.size s.lengthNat % 2 = 1 → t.mat0 = oddPower (2 ^ (Nat.size s.lengthNat + 2)) ∧
      t.mat1 = oddPower (2 ^ (Nat.size s.lengthNat + 1))) ∧
    (Nat.size s.lengthNat % 2 = 0 → t.mat1 = oddPower (2 ^ (Nat.size s.lengthNat + 2)) ∧
      t.mat0 = oddPower (2 ^ (Nat.size s.lengthNat + 1)))

/-- R139, R134: the loop of R131 leaves after exactly `bitlength(n)` passes, at most 64, with the counter at zero and not
before; pass `k` writes `P^(2^(k+3))`. The fuel of the model's loop is never what ends it (log entry 19). -/
def Obligations.CombineLoopTakesBitlengthPasses : Prop :=
  ∀ (c : Word) (n : BitVec 64), n ≠ 0#64 →
    combineLoop combineFuel (combineSetup c n) = combineRun (Nat.size n.toNat) (combineSetup c n) ∧
    Nat.size n.toNat ≤ 64 ∧ (combineRun (Nat.size n.toNat) (combineSetup c n)).n = 0#64 ∧
    (∀ k, k < Nat.size n.toNat → (combineRun k (combineSetup c n)).n ≠ 0#64) ∧
    (∀ k, k % 2 = 0 → (combineRun (k + 1) (combineSetup c n)).even = oddPower (2 ^ (k + 3))) ∧
    (∀ k, k % 2 = 1 → (combineRun (k + 1) (combineSetup c n)).odd = oddPower (2 ^ (k + 3)))

/-- R138: for a non-zero length COMBINE leaves the banks and computes the value that the perform steps of the host's sequence of
primitives do. The sequence's bus writes and `WAIT_IDLE` are not in it. -/
def Obligations.CombineMatchesPrimitiveSequence : Prop :=
  ∀ s : State, s.lengthNat ≠ 0 → ∃ t, exec .combine s = .next t ∧
    t.mat0 = (primitiveCombine s).2.mat0 ∧ t.mat1 = (primitiveCombine s).2.mat1 ∧
    t.result = (primitiveCombine s).1 ^^^ s.crc2

/-- R136: the correctness law, for the CRC-32 of GK2 (the convention is general knowledge, log entry 18). -/
def Obligations.CombineObeysConcatenationLaw : Prop :=
  ∀ (s : State) (A B : List Byte), s.crc1 = crc32 A → s.crc2 = crc32 B → s.lengthNat = B.length →
    ∃ t, exec .combine s = .next t ∧ t.result = crc32 (A ++ B)

/-- R150, R34: performing any command completes, and writes only what the write matrix says: the named bank, `RESULT` for MVMUL
and COMBINE, both banks for COMBINE with a non-zero length, DONE and the phase. That `PENDING` keeps its word is the model's choice (log
entry 20). -/
def Obligations.EngineWritesOnlyItsDestinations : Prop :=
  ∀ (i : Instr) (s : State), ∃ t, exec i s = .next t ∧ t.phase = .idle ∧ t.done = true ∧
    SameOperands s t ∧ t.cmderr = s.cmderr ∧ t.ovr = s.ovr ∧ t.pending = s.pending ∧ t.wait = s.wait ∧
    t.draws = s.draws ∧ t.inputs = s.inputs ∧ t.responses = s.responses ∧
    (t.result = s.result ∨ (∃ b, i = .mvmul b) ∨ i = .combine) ∧
    (∀ b : Bank, t.bank b = s.bank b ∨ (∃ b', i = .msqr b b') ∨ i = .minit b ∨ (i = .combine ∧ s.lengthNat ≠ 0))

/-- R12, C6: an operation's result depends only on its operand registers and its source bank, whatever else the states hold. -/
def Obligations.ResultsDependOnlyOnOperands : Prop :=
  ∀ s t : State,
    (∀ (b : Bank) (s' t' : State), s.bank b = t.bank b → s.vec = t.vec →
      exec (.mvmul b) s = .next s' → exec (.mvmul b) t = .next t' → s'.result = t'.result) ∧
    (∀ (d b : Bank) (s' t' : State), s.bank b = t.bank b →
      exec (.msqr d b) s = .next s' → exec (.msqr d b) t = .next t' → s'.bank d = t'.bank d) ∧
    (∀ s' t' : State, s.crc1 = t.crc1 → s.crc2 = t.crc2 → s.lengthNat = t.lengthNat →
      exec .combine s = .next s' → exec .combine t = .next t' →
      s'.result = t'.result ∧ (s.lengthNat ≠ 0 → s'.mat0 = t'.mat0 ∧ s'.mat1 = t'.mat1))

/-! ### The machine (spec 10 R29, R30; 20 R60; 60; 70) -/

/-- R30: on the engine's turn the step performs the command `PENDING` holds; otherwise the step is the host's. When it is the
engine's turn is the model's choice (log entry 2), and so is `withFetchWord`, which stands for an accepted `CMD` write with no
access awaited (log entry 11). -/
def Obligations.StepPerformsPendingCommand : Prop :=
  (∀ (s : State) (i : Instr), s.engineTurn = true → decode s.pending = .ok i → step s = exec i s) ∧
  (∀ s : State, s.engineTurn = false → step s = hostTurn s) ∧
  (∀ s : State, s.engineTurn = true ↔ s.phase = .busy ∧ (s.wait = 0 ∨ s.inputs = [])) ∧
  (∀ (s : State) (w : Word) (i : Instr), decode w = .ok i →
    step (s.withFetchWord 32 w.toNat) = exec i (s.withFetchWord 32 w.toNat))

/-- R29, R86: every step keeps the engine's invariant: BUSY with DONE set is unreachable, and a BUSY engine's `PENDING` is a legal
command. -/
def Obligations.StepKeepsEngineInvariant : Prop :=
  ∀ s t : State, s.engineInv = true → step s = .next t → t.engineInv = true

/-- The engine's invariant holds after reset. -/
def Obligations.ResetMeetsEngineInvariant : Prop :=
  State.reset.engineInv = true ∧ ∀ draws inputs responses, (State.afterReset draws inputs responses).engineInv = true

/-- R150, R156: in a state that meets the invariant the machine never refuses (log entry 9), and with the head access in the
window it goes on; an access outside the window stops it with a fault (log entry 4). -/
def Obligations.InvariantStatesNeverRefuse : Prop :=
  ∀ s : State, s.engineInv = true → (∀ r, step s ≠ .refused r) ∧
    ((∀ op ∈ s.inputs.head?, op.inWindow = true) → ∃ t, step s = .next t)

/-- R30, R57, R153: while a command stays pending no step changes the operands, the banks, `RESULT` or `PENDING`, so it is
performed on the operands it was accepted with. -/
def Obligations.BusyFreezesOperands : Prop :=
  ∀ s t : State, s.phase = .busy → step s = .next t → t.phase = .busy →
    SameOperands s t ∧ SameResults s t ∧ t.pending = s.pending

/-- R29: CMDERR and OVR are sticky: only a host write of 1 to their `STATUS` bit, or reset, clears them. DONE is cleared only so,
or by acceptance, and set only by the perform step (which is due as log entry 2 says). -/
def Obligations.StatusBitsChangeOnlyAsTold : Prop :=
  ∀ s t : State, step s = .next t →
    (s.cmderr = true → t.cmderr = false →
      ∃ rest, (∃ lost, HostNext s (.reset lost) rest) ∨ ∃ v, v.getLsbD 2 = true ∧ HostNext s (writeOp .status v) rest) ∧
    (s.ovr = true → t.ovr = false →
      ∃ rest, (∃ lost, HostNext s (.reset lost) rest) ∨ ∃ v, v.getLsbD 3 = true ∧ HostNext s (writeOp .status v) rest) ∧
    (s.done = true → t.done = false →
      ∃ rest, (∃ lost, HostNext s (.reset lost) rest) ∨ (∃ v, v.getLsbD 1 = true ∧ HostNext s (writeOp .status v) rest) ∨
        ∃ v i, decode v = .ok i ∧ s.phase = .idle ∧ HostNext s (writeOp .cmd v) rest) ∧
    (s.done = false → t.done = true → s.engineTurn = true ∧ t.phase = .idle)

/-- R151: a condition's code is the position of the `STATUS` bit it sets, and a bus error records nothing in the block.
That `PENDING` keeps its word between commands too is the model's choice (log entry 20). -/
def Obligations.ConditionCodesAreStatusBits : Prop :=
  ∀ s : State, Condition.cmderr.code = some 2 ∧ Condition.ovr.code = some 3 ∧ Condition.busError.code = none ∧
    s.raise .busError = s ∧
    ∀ (c : Condition) (k : Nat), c.code = some k →
      (s.raise c).statusWord = s.statusWord ||| (1#32 <<< k) ∧ SameOperands s (s.raise c) ∧ SameResults s (s.raise c) ∧
        (s.raise c).phase = s.phase ∧ (s.raise c).pending = s.pending

/-- R151 to R153: what sets the error bits: CMDERR only an illegal word written to `CMD` while IDLE, OVR only a write to a register
other than `STATUS` and `RESULT` while BUSY. -/
def Obligations.ErrorBitsAreSetOnlyByMisuse : Prop :=
  ∀ s t : State, step s = .next t →
    (s.cmderr = false → t.cmderr = true →
      ∃ v rest, s.phase = .idle ∧ (∀ i, decode v ≠ .ok i) ∧ HostNext s (writeOp .cmd v) rest) ∧
    (s.ovr = false → t.ovr = true →
      ∃ r v rest, s.phase = .busy ∧ r ≠ Reg.status ∧ r ≠ Reg.result ∧ HostNext s (writeOp r v) rest)

/-- R184: a host access that keeps the BUSY hazard rule draws no free value and raises no OVR; a legal write that breaks it
leaves OVR set, so a program that checks `STATUS` finds out. The counter of free draws is log entry 6. -/
def Obligations.BusyHazardIsDetected : Prop :=
  ∀ (s : State) (a : Access) (rest : List HostOp), s.phase = .busy → HostNext s (.access a) rest →
    (∀ t, a.breaksBusyHazard = false → step s = .next t → (t.ovr = true → s.ovr = true) ∧ t.draws = s.draws) ∧
    (∀ addr v, a = .write addr 4 v → addr % 4 = 0 → a.breaksBusyHazard = true →
      ∃ t, step s = .next t ∧ t.ovr = true ∧ SameOperands s t ∧ SameResults s t ∧ t.pending = s.pending)

/-- R60 (c), R161: while IDLE every register keeps its value: `RESULT` until a reset, and each operand register and each bank row
until a reset or a host write of that very register, which then holds the word written. -/
def Obligations.IdleStateKeepsResults : Prop :=
  ∀ s t : State, s.phase = .idle → step s = .next t → (∀ lost rest, s.inputs ≠ .reset lost :: rest) →
    t.result = s.result ∧
    (∀ r ∈ [Reg.crc1, .crc2, .len2Lo, .len2Hi, .vec], t.regValue r = s.regValue r ∨
      ∃ v rest, s.inputs = writeOp r v :: rest ∧ t.regValue r = v) ∧
    (∀ (b : Bank) (n : Fin 32), t.row b n = s.row b n ∨
      ∃ v rest, s.inputs = writeOp (.row b n) v :: rest ∧ t.row b n = v)

/-- R187, R60 (b), D12: both orders of a perform step and a host write are allowed. With no access awaited the command is
performed first and the write then lands; with one awaited the write is dropped with OVR and the command performed next. The
command's results are the same in both. The form of `LAT` is the model's choice (log entry 2). -/
def Obligations.EitherOrderOfPerformAndWrite : Prop :=
  ∀ (s : State) (i : Instr) (v : Word) (rest : List HostOp), s.phase = .busy → decode s.pending = .ok i →
    s.inputs = writeOp .crc1 v :: rest →
    ∃ p a b c : State, exec i s = .next p ∧
      step { s with wait := 0 } = .next a ∧ step a = .next b ∧
      Host.Core.run core 2 { s with wait := 1 } = .next c ∧
      b.phase = .idle ∧ c.phase = .idle ∧ SameResults p b ∧ SameResults p c ∧
      b.crc1 = v ∧ b.ovr = s.ovr ∧ c.crc1 = s.crc1 ∧ c.ovr = true

/-- R188: an accepted command is performed after finitely many host accesses, whatever the host does in the window. Within `LAT`
steps the run reaches, still BUSY and with `PENDING`, the operands, the banks and `RESULT` as they were, the engine's turn, and
that step performs the command; or else a reset among the host's operations comes first. The form of `LAT` is the model's
choice (log entry 2). -/
def Obligations.AcceptedCommandIsPerformed : Prop :=
  ∀ (s : State) (i : Instr), s.phase = .busy → decode s.pending = .ok i → (∀ op ∈ s.inputs, op.inWindow = true) →
    ∃ k u, k ≤ s.wait ∧ RunsTo k s u ∧ u.phase = .busy ∧ u.pending = s.pending ∧ SameOperands s u ∧ SameResults s u ∧
      u.inputs <:+ s.inputs ∧
      ((u.engineTurn = true ∧ ∃ t, exec i u = .next t ∧ step u = .next t ∧ t.phase = .idle ∧ t.done = true) ∨
        ∃ lost rest, HostNext u (.reset lost) rest)

/-- R89, R88: the pseudo-instruction `CRC32_COMBINE c1, c2, x`, run from any IDLE state, ends with the combination as the
newest answer to the host, whatever the latency. `LAT` has the form of log entry 2, and `WAIT_IDLE` that of log entry 8. -/
def Obligations.Crc32CombineReturnsCombination : Prop :=
  ∀ (s : State) (c1 c2 : Word) (x : BitVec 64) (rest : List HostOp), s.phase = .idle →
    s.inputs = crc32Combine c1 c2 x ++ rest →
    ∃ k t, RunsTo k s t ∧ t.inputs = rest ∧ t.phase = .idle ∧ t.done = true ∧ t.ovr = s.ovr ∧ t.cmderr = s.cmderr ∧
      t.responses.head? = some (.data
        (if x = 0#64 then c1 else gf2Apply (oddPower (8 * x.toNat)) c1 ^^^ c2))
end

