-- ==== Sys2Proof/Laws/State.lean ====
section
/-!
SUPPORT. Laws/State.lean: one lemma per field per update of State, so that no proof unfolds a record update, and the read
and write laws of the banks.
-/

namespace Sys2Proof.Machine.State

variable (s : State)

@[simp] theorem complete_mat0 : (s.complete).mat0 = s.mat0 := by cases s; rfl
@[simp] theorem complete_mat1 : (s.complete).mat1 = s.mat1 := by cases s; rfl
@[simp] theorem complete_crc1 : (s.complete).crc1 = s.crc1 := by cases s; rfl
@[simp] theorem complete_crc2 : (s.complete).crc2 = s.crc2 := by cases s; rfl
@[simp] theorem complete_len2Lo : (s.complete).len2Lo = s.len2Lo := by cases s; rfl
@[simp] theorem complete_len2Hi : (s.complete).len2Hi = s.len2Hi := by cases s; rfl
@[simp] theorem complete_vec : (s.complete).vec = s.vec := by cases s; rfl
@[simp] theorem complete_result : (s.complete).result = s.result := by cases s; rfl
@[simp] theorem complete_done : (s.complete).done = true := by cases s; rfl
@[simp] theorem complete_cmderr : (s.complete).cmderr = s.cmderr := by cases s; rfl
@[simp] theorem complete_ovr : (s.complete).ovr = s.ovr := by cases s; rfl
@[simp] theorem complete_phase : (s.complete).phase = .idle := by cases s; rfl
@[simp] theorem complete_pending : (s.complete).pending = s.pending := by cases s; rfl
@[simp] theorem complete_wait : (s.complete).wait = s.wait := by cases s; rfl
@[simp] theorem complete_draws : (s.complete).draws = s.draws := by cases s; rfl
@[simp] theorem complete_inputs : (s.complete).inputs = s.inputs := by cases s; rfl
@[simp] theorem complete_responses : (s.complete).responses = s.responses := by cases s; rfl

@[simp] theorem accept_mat0 (w : Word) : (s.accept w).mat0 = s.mat0 := rfl
@[simp] theorem accept_mat1 (w : Word) : (s.accept w).mat1 = s.mat1 := rfl
@[simp] theorem accept_crc1 (w : Word) : (s.accept w).crc1 = s.crc1 := rfl
@[simp] theorem accept_crc2 (w : Word) : (s.accept w).crc2 = s.crc2 := rfl
@[simp] theorem accept_len2Lo (w : Word) : (s.accept w).len2Lo = s.len2Lo := rfl
@[simp] theorem accept_len2Hi (w : Word) : (s.accept w).len2Hi = s.len2Hi := rfl
@[simp] theorem accept_vec (w : Word) : (s.accept w).vec = s.vec := rfl
@[simp] theorem accept_result (w : Word) : (s.accept w).result = s.result := rfl
@[simp] theorem accept_done (w : Word) : (s.accept w).done = false := rfl
@[simp] theorem accept_cmderr (w : Word) : (s.accept w).cmderr = s.cmderr := rfl
@[simp] theorem accept_ovr (w : Word) : (s.accept w).ovr = s.ovr := rfl
@[simp] theorem accept_phase (w : Word) : (s.accept w).phase = .busy := rfl
@[simp] theorem accept_pending (w : Word) : (s.accept w).pending = w := rfl
@[simp] theorem accept_wait (w : Word) : (s.accept w).wait = Config.latency s.draws := rfl
@[simp] theorem accept_draws (w : Word) : (s.accept w).draws = s.draws + 1 := rfl
@[simp] theorem accept_inputs (w : Word) : (s.accept w).inputs = s.inputs := rfl
@[simp] theorem accept_responses (w : Word) : (s.accept w).responses = s.responses := rfl

@[simp] theorem clearStatus_mat0 (v : Word) : (s.clearStatus v).mat0 = s.mat0 := rfl
@[simp] theorem clearStatus_mat1 (v : Word) : (s.clearStatus v).mat1 = s.mat1 := rfl
@[simp] theorem clearStatus_crc1 (v : Word) : (s.clearStatus v).crc1 = s.crc1 := rfl
@[simp] theorem clearStatus_crc2 (v : Word) : (s.clearStatus v).crc2 = s.crc2 := rfl
@[simp] theorem clearStatus_len2Lo (v : Word) : (s.clearStatus v).len2Lo = s.len2Lo := rfl
@[simp] theorem clearStatus_len2Hi (v : Word) : (s.clearStatus v).len2Hi = s.len2Hi := rfl
@[simp] theorem clearStatus_vec (v : Word) : (s.clearStatus v).vec = s.vec := rfl
@[simp] theorem clearStatus_result (v : Word) : (s.clearStatus v).result = s.result := rfl
@[simp] theorem clearStatus_done (v : Word) : (s.clearStatus v).done = (s.done && !v.getLsbD 1) := rfl
@[simp] theorem clearStatus_cmderr (v : Word) : (s.clearStatus v).cmderr = (s.cmderr && !v.getLsbD 2) := rfl
@[simp] theorem clearStatus_ovr (v : Word) : (s.clearStatus v).ovr = (s.ovr && !v.getLsbD 3) := rfl
@[simp] theorem clearStatus_phase (v : Word) : (s.clearStatus v).phase = s.phase := rfl
@[simp] theorem clearStatus_pending (v : Word) : (s.clearStatus v).pending = s.pending := rfl
@[simp] theorem clearStatus_wait (v : Word) : (s.clearStatus v).wait = s.wait := rfl
@[simp] theorem clearStatus_draws (v : Word) : (s.clearStatus v).draws = s.draws := rfl
@[simp] theorem clearStatus_inputs (v : Word) : (s.clearStatus v).inputs = s.inputs := rfl
@[simp] theorem clearStatus_responses (v : Word) : (s.clearStatus v).responses = s.responses := rfl

@[simp] theorem raise_cmderr_mat0 : (s.raise .cmderr).mat0 = s.mat0 := rfl
@[simp] theorem raise_cmderr_mat1 : (s.raise .cmderr).mat1 = s.mat1 := rfl
@[simp] theorem raise_cmderr_crc1 : (s.raise .cmderr).crc1 = s.crc1 := rfl
@[simp] theorem raise_cmderr_crc2 : (s.raise .cmderr).crc2 = s.crc2 := rfl
@[simp] theorem raise_cmderr_len2Lo : (s.raise .cmderr).len2Lo = s.len2Lo := rfl
@[simp] theorem raise_cmderr_len2Hi : (s.raise .cmderr).len2Hi = s.len2Hi := rfl
@[simp] theorem raise_cmderr_vec : (s.raise .cmderr).vec = s.vec := rfl
@[simp] theorem raise_cmderr_result : (s.raise .cmderr).result = s.result := rfl
@[simp] theorem raise_cmderr_done : (s.raise .cmderr).done = s.done := rfl
@[simp] theorem raise_cmderr_cmderr : (s.raise .cmderr).cmderr = true := rfl
@[simp] theorem raise_cmderr_ovr : (s.raise .cmderr).ovr = s.ovr := rfl
@[simp] theorem raise_cmderr_phase : (s.raise .cmderr).phase = s.phase := rfl
@[simp] theorem raise_cmderr_pending : (s.raise .cmderr).pending = s.pending := rfl
@[simp] theorem raise_cmderr_wait : (s.raise .cmderr).wait = s.wait := rfl
@[simp] theorem raise_cmderr_draws : (s.raise .cmderr).draws = s.draws := rfl
@[simp] theorem raise_cmderr_inputs : (s.raise .cmderr).inputs = s.inputs := rfl
@[simp] theorem raise_cmderr_responses : (s.raise .cmderr).responses = s.responses := rfl

@[simp] theorem raise_ovr_mat0 : (s.raise .ovr).mat0 = s.mat0 := rfl
@[simp] theorem raise_ovr_mat1 : (s.raise .ovr).mat1 = s.mat1 := rfl
@[simp] theorem raise_ovr_crc1 : (s.raise .ovr).crc1 = s.crc1 := rfl
@[simp] theorem raise_ovr_crc2 : (s.raise .ovr).crc2 = s.crc2 := rfl
@[simp] theorem raise_ovr_len2Lo : (s.raise .ovr).len2Lo = s.len2Lo := rfl
@[simp] theorem raise_ovr_len2Hi : (s.raise .ovr).len2Hi = s.len2Hi := rfl
@[simp] theorem raise_ovr_vec : (s.raise .ovr).vec = s.vec := rfl
@[simp] theorem raise_ovr_result : (s.raise .ovr).result = s.result := rfl
@[simp] theorem raise_ovr_done : (s.raise .ovr).done = s.done := rfl
@[simp] theorem raise_ovr_cmderr : (s.raise .ovr).cmderr = s.cmderr := rfl
@[simp] theorem raise_ovr_ovr : (s.raise .ovr).ovr = true := rfl
@[simp] theorem raise_ovr_phase : (s.raise .ovr).phase = s.phase := rfl
@[simp] theorem raise_ovr_pending : (s.raise .ovr).pending = s.pending := rfl
@[simp] theorem raise_ovr_wait : (s.raise .ovr).wait = s.wait := rfl
@[simp] theorem raise_ovr_draws : (s.raise .ovr).draws = s.draws := rfl
@[simp] theorem raise_ovr_inputs : (s.raise .ovr).inputs = s.inputs := rfl
@[simp] theorem raise_ovr_responses : (s.raise .ovr).responses = s.responses := rfl

@[simp] theorem respond_mat0 (r : Response) : (s.respond r).mat0 = s.mat0 := rfl
@[simp] theorem respond_mat1 (r : Response) : (s.respond r).mat1 = s.mat1 := rfl
@[simp] theorem respond_crc1 (r : Response) : (s.respond r).crc1 = s.crc1 := rfl
@[simp] theorem respond_crc2 (r : Response) : (s.respond r).crc2 = s.crc2 := rfl
@[simp] theorem respond_len2Lo (r : Response) : (s.respond r).len2Lo = s.len2Lo := rfl
@[simp] theorem respond_len2Hi (r : Response) : (s.respond r).len2Hi = s.len2Hi := rfl
@[simp] theorem respond_vec (r : Response) : (s.respond r).vec = s.vec := rfl
@[simp] theorem respond_result (r : Response) : (s.respond r).result = s.result := rfl
@[simp] theorem respond_done (r : Response) : (s.respond r).done = s.done := rfl
@[simp] theorem respond_cmderr (r : Response) : (s.respond r).cmderr = s.cmderr := rfl
@[simp] theorem respond_ovr (r : Response) : (s.respond r).ovr = s.ovr := rfl
@[simp] theorem respond_phase (r : Response) : (s.respond r).phase = s.phase := rfl
@[simp] theorem respond_pending (r : Response) : (s.respond r).pending = s.pending := rfl
@[simp] theorem respond_wait (r : Response) : (s.respond r).wait = s.wait := rfl
@[simp] theorem respond_draws (r : Response) : (s.respond r).draws = s.draws := rfl
@[simp] theorem respond_inputs (r : Response) : (s.respond r).inputs = s.inputs := rfl
@[simp] theorem respond_responses (r : Response) : (s.respond r).responses = r :: s.responses := rfl

@[simp] theorem tick_mat0 (rest : List HostOp) : (s.tick rest).mat0 = s.mat0 := rfl
@[simp] theorem tick_mat1 (rest : List HostOp) : (s.tick rest).mat1 = s.mat1 := rfl
@[simp] theorem tick_crc1 (rest : List HostOp) : (s.tick rest).crc1 = s.crc1 := rfl
@[simp] theorem tick_crc2 (rest : List HostOp) : (s.tick rest).crc2 = s.crc2 := rfl
@[simp] theorem tick_len2Lo (rest : List HostOp) : (s.tick rest).len2Lo = s.len2Lo := rfl
@[simp] theorem tick_len2Hi (rest : List HostOp) : (s.tick rest).len2Hi = s.len2Hi := rfl
@[simp] theorem tick_vec (rest : List HostOp) : (s.tick rest).vec = s.vec := rfl
@[simp] theorem tick_result (rest : List HostOp) : (s.tick rest).result = s.result := rfl
@[simp] theorem tick_done (rest : List HostOp) : (s.tick rest).done = s.done := rfl
@[simp] theorem tick_cmderr (rest : List HostOp) : (s.tick rest).cmderr = s.cmderr := rfl
@[simp] theorem tick_ovr (rest : List HostOp) : (s.tick rest).ovr = s.ovr := rfl
@[simp] theorem tick_phase (rest : List HostOp) : (s.tick rest).phase = s.phase := rfl
@[simp] theorem tick_pending (rest : List HostOp) : (s.tick rest).pending = s.pending := rfl
@[simp] theorem tick_wait (rest : List HostOp) : (s.tick rest).wait = s.wait - 1 := rfl
@[simp] theorem tick_draws (rest : List HostOp) : (s.tick rest).draws = s.draws := rfl
@[simp] theorem tick_inputs (rest : List HostOp) : (s.tick rest).inputs = rest := rfl
@[simp] theorem tick_responses (rest : List HostOp) : (s.tick rest).responses = s.responses := rfl

@[simp] theorem raise_busError : s.raise .busError = s := rfl

@[simp] theorem setBank_crc1 (b : Bank) (m : Mat) : (s.setBank b m).crc1 = s.crc1 := by cases b <;> rfl
@[simp] theorem setBank_crc2 (b : Bank) (m : Mat) : (s.setBank b m).crc2 = s.crc2 := by cases b <;> rfl
@[simp] theorem setBank_len2Lo (b : Bank) (m : Mat) : (s.setBank b m).len2Lo = s.len2Lo := by cases b <;> rfl
@[simp] theorem setBank_len2Hi (b : Bank) (m : Mat) : (s.setBank b m).len2Hi = s.len2Hi := by cases b <;> rfl
@[simp] theorem setBank_vec (b : Bank) (m : Mat) : (s.setBank b m).vec = s.vec := by cases b <;> rfl
@[simp] theorem setBank_result (b : Bank) (m : Mat) : (s.setBank b m).result = s.result := by cases b <;> rfl
@[simp] theorem setBank_done (b : Bank) (m : Mat) : (s.setBank b m).done = s.done := by cases b <;> rfl
@[simp] theorem setBank_cmderr (b : Bank) (m : Mat) : (s.setBank b m).cmderr = s.cmderr := by cases b <;> rfl
@[simp] theorem setBank_ovr (b : Bank) (m : Mat) : (s.setBank b m).ovr = s.ovr := by cases b <;> rfl
@[simp] theorem setBank_phase (b : Bank) (m : Mat) : (s.setBank b m).phase = s.phase := by cases b <;> rfl
@[simp] theorem setBank_pending (b : Bank) (m : Mat) : (s.setBank b m).pending = s.pending := by cases b <;> rfl
@[simp] theorem setBank_wait (b : Bank) (m : Mat) : (s.setBank b m).wait = s.wait := by cases b <;> rfl
@[simp] theorem setBank_draws (b : Bank) (m : Mat) : (s.setBank b m).draws = s.draws := by cases b <;> rfl
@[simp] theorem setBank_inputs (b : Bank) (m : Mat) : (s.setBank b m).inputs = s.inputs := by cases b <;> rfl
@[simp] theorem setBank_responses (b : Bank) (m : Mat) : (s.setBank b m).responses = s.responses := by cases b <;> rfl

@[simp] theorem afterReset_crc1 (d : Nat) (l : List HostOp) (q : List Response) :
    (State.afterReset d l q).crc1 = 0#32 := by rw [afterReset]
@[simp] theorem afterReset_crc2 (d : Nat) (l : List HostOp) (q : List Response) :
    (State.afterReset d l q).crc2 = 0#32 := by rw [afterReset]
@[simp] theorem afterReset_len2Lo (d : Nat) (l : List HostOp) (q : List Response) :
    (State.afterReset d l q).len2Lo = 0#32 := by rw [afterReset]
@[simp] theorem afterReset_len2Hi (d : Nat) (l : List HostOp) (q : List Response) :
    (State.afterReset d l q).len2Hi = 0#32 := by rw [afterReset]
@[simp] theorem afterReset_vec (d : Nat) (l : List HostOp) (q : List Response) :
    (State.afterReset d l q).vec = 0#32 := by rw [afterReset]
@[simp] theorem afterReset_result (d : Nat) (l : List HostOp) (q : List Response) :
    (State.afterReset d l q).result = 0#32 := by rw [afterReset]
@[simp] theorem afterReset_done (d : Nat) (l : List HostOp) (q : List Response) :
    (State.afterReset d l q).done = false := by rw [afterReset]
@[simp] theorem afterReset_cmderr (d : Nat) (l : List HostOp) (q : List Response) :
    (State.afterReset d l q).cmderr = false := by rw [afterReset]
@[simp] theorem afterReset_ovr (d : Nat) (l : List HostOp) (q : List Response) :
    (State.afterReset d l q).ovr = false := by rw [afterReset]
@[simp] theorem afterReset_phase (d : Nat) (l : List HostOp) (q : List Response) :
    (State.afterReset d l q).phase = .idle := by rw [afterReset]
@[simp] theorem afterReset_wait (d : Nat) (l : List HostOp) (q : List Response) :
    (State.afterReset d l q).wait = 0 := by rw [afterReset]
@[simp] theorem afterReset_draws (d : Nat) (l : List HostOp) (q : List Response) :
    (State.afterReset d l q).draws = d + resetDraws := by rw [afterReset]
@[simp] theorem afterReset_inputs (d : Nat) (l : List HostOp) (q : List Response) :
    (State.afterReset d l q).inputs = l := by rw [afterReset]
@[simp] theorem afterReset_responses (d : Nat) (l : List HostOp) (q : List Response) :
    (State.afterReset d l q).responses = q := by rw [afterReset]

/-- A row of `MAT0` after reset is a free draw (I1). -/
theorem afterReset_mat0_row (d : Nat) (l : List HostOp) (q : List Response) (n : Fin 32) :
    (State.afterReset d l q).mat0[n] = Config.freeWord (d + n.val) := by simp [afterReset]

/-- A row of `MAT1` after reset is another free draw (I1). -/
theorem afterReset_mat1_row (d : Nat) (l : List HostOp) (q : List Response) (n : Fin 32) :
    (State.afterReset d l q).mat1[n] = Config.freeWord (d + 32 + n.val) := by simp [afterReset]

/-- Completion as a record update, for a rewrite that unfolds nothing else. -/
theorem complete_eq : s.complete = { s with phase := .idle, done := true } := by cases s; rfl

/-- A write of `MAT0` as a record update. -/
theorem setBank_mat0_eq (m : Mat) : s.setBank .mat0 m = { s with mat0 := m } := by cases s; rfl

/-- A write of `MAT1` as a record update. -/
theorem setBank_mat1_eq (m : Mat) : s.setBank .mat1 m = { s with mat1 := m } := by cases s; rfl

@[simp] theorem complete_bank (b : Bank) : s.complete.bank b = s.bank b := by cases b <;> rfl
@[simp] theorem bank_mat0 : s.bank .mat0 = s.mat0 := by cases s; rfl
@[simp] theorem bank_mat1 : s.bank .mat1 = s.mat1 := by cases s; rfl
@[simp] theorem setBank_mat0_mat0 (m : Mat) : (s.setBank .mat0 m).mat0 = m := by cases s; rfl
@[simp] theorem setBank_mat0_mat1 (m : Mat) : (s.setBank .mat0 m).mat1 = s.mat1 := by cases s; rfl
@[simp] theorem setBank_mat1_mat0 (m : Mat) : (s.setBank .mat1 m).mat0 = s.mat0 := by cases s; rfl
@[simp] theorem setBank_mat1_mat1 (m : Mat) : (s.setBank .mat1 m).mat1 = m := by cases s; rfl

/-- A bank reads as it was last written. -/
@[simp] theorem bank_setBank_same (b : Bank) (m : Mat) : (s.setBank b m).bank b = m := by cases b <;> rfl

/-- Writing one bank leaves the other alone. -/
theorem bank_setBank_of_ne (b c : Bank) (m : Mat) (h : c ≠ b) : (s.setBank b m).bank c = s.bank c := by
  cases b <;> cases c <;> simp_all

/-- Writing one bank leaves the other one alone. -/
@[simp] theorem bank_other_setBank (b : Bank) (m : Mat) : (s.setBank b m).bank b.other = s.bank b.other := by
  cases b <;> rfl

/-- A row reads as it was last written. -/
theorem row_setRow_same (b : Bank) (n : Fin 32) (v : Word) : (s.setRow b n v).row b n = v := by
  simp [row, setRow]

/-- Writing one row leaves every other row of every bank alone. -/
theorem row_setRow_of_ne (b c : Bank) (n k : Fin 32) (v : Word) (h : (c, k) ≠ (b, n)) :
    (s.setRow b n v).row c k = s.row c k := by
  rcases eq_or_ne c b with rfl | hc
  · have hk : n.val ≠ k.val := fun e => h (by simp [Fin.ext_iff, e])
    simp [row, setRow, Vector.getElem_set_ne _ _ hk]
  · simp [row, setRow, bank_setBank_of_ne s b c _ hc]

/-- The engine is busy exactly in the BUSY phase. -/
@[simp] theorem busy_iff : s.busy = true ↔ s.phase = .busy := by simp [busy]

/-- The engine is not busy exactly in the IDLE phase. -/
@[simp] theorem not_busy_iff : s.busy = false ↔ s.phase = .idle := by
  cases h : s.phase <;> simp [busy, h]

/-- An IDLE engine never has the turn. -/
theorem engineTurn_of_idle (h : s.phase = .idle) : s.engineTurn = false := by simp [engineTurn, busy, h]

/-- When the engine has the turn. -/
theorem engineTurn_iff_busy_and_due :
    s.engineTurn = true ↔ s.phase = .busy ∧ (s.wait = 0 ∨ s.inputs.isEmpty = true) := by
  simp [engineTurn]

/-- Two states are equal when all their fields are. -/
theorem ext_fields {s t : State} (h0 : s.mat0 = t.mat0) (h1 : s.mat1 = t.mat1) (h2 : s.crc1 = t.crc1)
    (h3 : s.crc2 = t.crc2) (h4 : s.len2Lo = t.len2Lo) (h5 : s.len2Hi = t.len2Hi) (h6 : s.vec = t.vec)
    (h7 : s.result = t.result) (h8 : s.done = t.done) (h9 : s.cmderr = t.cmderr) (h10 : s.ovr = t.ovr)
    (h11 : s.phase = t.phase) (h12 : s.pending = t.pending) (h13 : s.wait = t.wait) (h14 : s.draws = t.draws)
    (h15 : s.inputs = t.inputs) (h16 : s.responses = t.responses) : s = t := by
  cases s; cases t; simp_all

end Sys2Proof.Machine.State
end

