-- ==== Sys2Proof/Laws/Combine.lean ====
section
/-!
SUPPORT. Laws/Combine.lean: COMBINE's passes and loop, one lemma per field, so that no proof unfolds a squaring.
-/

namespace Sys2Proof.Machine

variable (r : CombineRegs)

@[simp] theorem combinePassEven_even : (combinePassEven r).even = gf2Square r.odd := by simp only [combinePassEven]
@[simp] theorem combinePassEven_odd : (combinePassEven r).odd = r.odd := by rw [combinePassEven]
@[simp] theorem combinePassEven_n : (combinePassEven r).n = r.n >>> 1 := rfl
@[simp] theorem combinePassOdd_odd : (combinePassOdd r).odd = gf2Square r.even := by simp only [combinePassOdd]
@[simp] theorem combinePassOdd_even : (combinePassOdd r).even = r.even := by rw [combinePassOdd]
@[simp] theorem combinePassOdd_n : (combinePassOdd r).n = r.n >>> 1 := rfl

/-- A pass applies the matrix it has just squared exactly when bit 0 of the counter is 1 (R131). -/
theorem combinePassEven_c :
    (combinePassEven r).c = if r.n.getLsbD 0 then gf2Apply (gf2Square r.odd) r.c else r.c := rfl

/-- The same for the passes that write `MAT[1]` (R131). -/
theorem combinePassOdd_c :
    (combinePassOdd r).c = if r.n.getLsbD 0 then gf2Apply (gf2Square r.even) r.c else r.c := rfl

@[simp] theorem combineRun_zero : combineRun 0 r = r := rfl

/-- An even-numbered pass writes `MAT[0]` (R134). -/
theorem combineRun_succ_of_even {k : Nat} (h : k % 2 = 0) : combineRun (k + 1) r = combinePassEven (combineRun k r) := by
  rw [combineRun, if_pos h]

/-- An odd-numbered pass writes `MAT[1]` (R134). -/
theorem combineRun_succ_of_odd {k : Nat} (h : k % 2 = 1) : combineRun (k + 1) r = combinePassOdd (combineRun k r) := by
  rw [combineRun, if_neg (by omega)]

/-- One iteration of R131's loop. -/
theorem combineLoop_succ (fuel : Nat) :
    combineLoop (fuel + 1) r =
      if (combinePassEven r).n = 0#64 then combinePassEven r
      else if (combinePassOdd (combinePassEven r)).n = 0#64 then combinePassOdd (combinePassEven r)
      else combineLoop fuel (combinePassOdd (combinePassEven r)) := by
  rw [combineLoop]

@[simp] theorem combineSetup_c (c : Word) (n : BitVec 64) : (combineSetup c n).c = c := rfl
@[simp] theorem combineSetup_n (c : Word) (n : BitVec 64) : (combineSetup c n).n = n := rfl
theorem combineSetup_even (c : Word) (n : BitVec 64) : (combineSetup c n).even = gf2Square odd0 := rfl
theorem combineSetup_odd (c : Word) (n : BitVec 64) : (combineSetup c n).odd = gf2Square (gf2Square odd0) := rfl

@[simp] theorem State.takeCombine_mat0 (s : State) : (s.takeCombine r).mat0 = r.even := by cases s; rfl
@[simp] theorem State.takeCombine_mat1 (s : State) : (s.takeCombine r).mat1 = r.odd := by cases s; rfl
@[simp] theorem State.takeCombine_crc1 (s : State) : (s.takeCombine r).crc1 = s.crc1 := by cases s; rfl
@[simp] theorem State.takeCombine_crc2 (s : State) : (s.takeCombine r).crc2 = s.crc2 := by cases s; rfl
@[simp] theorem State.takeCombine_len2Lo (s : State) : (s.takeCombine r).len2Lo = s.len2Lo := by cases s; rfl
@[simp] theorem State.takeCombine_len2Hi (s : State) : (s.takeCombine r).len2Hi = s.len2Hi := by cases s; rfl
@[simp] theorem State.takeCombine_vec (s : State) : (s.takeCombine r).vec = s.vec := by cases s; rfl
@[simp] theorem State.takeCombine_result (s : State) : (s.takeCombine r).result = r.c ^^^ s.crc2 := by cases s; rfl
@[simp] theorem State.takeCombine_done (s : State) : (s.takeCombine r).done = s.done := by cases s; rfl
@[simp] theorem State.takeCombine_cmderr (s : State) : (s.takeCombine r).cmderr = s.cmderr := by cases s; rfl
@[simp] theorem State.takeCombine_ovr (s : State) : (s.takeCombine r).ovr = s.ovr := by cases s; rfl
@[simp] theorem State.takeCombine_phase (s : State) : (s.takeCombine r).phase = s.phase := by cases s; rfl
@[simp] theorem State.takeCombine_pending (s : State) : (s.takeCombine r).pending = s.pending := by cases s; rfl
@[simp] theorem State.takeCombine_wait (s : State) : (s.takeCombine r).wait = s.wait := by cases s; rfl
@[simp] theorem State.takeCombine_draws (s : State) : (s.takeCombine r).draws = s.draws := by cases s; rfl
@[simp] theorem State.takeCombine_inputs (s : State) : (s.takeCombine r).inputs = s.inputs := by cases s; rfl
@[simp] theorem State.takeCombine_responses (s : State) : (s.takeCombine r).responses = s.responses := by cases s; rfl

/-- COMBINE with a zero length (R132). -/
theorem execCombine_of_zero {s : State} (h : s.len2 = 0#64) :
    execCombine s = .next ({ s with result := s.crc1 }).complete := by rw [execCombine, if_pos h]

/-- COMBINE with a non-zero length (R131). -/
theorem execCombine_of_ne_zero {s : State} (h : s.len2 ≠ 0#64) :
    execCombine s = .next (s.takeCombine (combineResult s.crc1 s.len2)).complete := by rw [execCombine, if_neg h]

end Sys2Proof.Machine
end

