-- ==== Sys2Proof/Laws/PerInstr.lean ====
section
/-! SUPPORT. Laws/PerInstr.lean: what is said of every command as syntax, one lemma per constructor. -/

namespace Sys2Proof.Laws.FieldsLegal

/-- The fields the encoder gives a command are a legal command word (R85). -/
def Statement (i : Instr) : Prop := i.fields.wellFormed = true

theorem mvmul (s : Bank) : Statement (.mvmul s) := by cases s <;> rfl

theorem msqr (d s : Bank) : Statement (.msqr d s) := by cases d <;> cases s <;> rfl

theorem minit (d : Bank) : Statement (.minit d) := by cases d <;> rfl

theorem combine : Statement .combine := rfl

end Sys2Proof.Laws.FieldsLegal
end

