-- ==== Sys2Proof/Laws/Window.lean ====
section
/-!
SUPPORT. Laws/Window.lean: which accesses reach a register (R50, R53), and everything a host access can do.
-/

namespace Sys2Proof.Machine

/-- `BASE` is a multiple of the window's size, so of 4 (R51). -/
theorem base_mod_four : Config.base % 4 = 0 := by simp only [Config.base, Config.windowSize]; omega

/-- An offset below 0x200 is decoded (R50). -/
theorem windowOffset_base_add (off : Nat) (h : off < 0x200) : windowOffset (Config.base + off) = some off := by
  simp [windowOffset, Config.windowSize, h]

/-- The block decodes an address exactly when it lies in the window (R50). -/
theorem windowOffset_eq_some_iff (addr off : Nat) :
    windowOffset addr = some off ↔ addr = Config.base + off ∧ off < 0x200 := by
  rw [windowOffset, Config.windowSize]
  split <;> simp <;> omega

/-- The block does not decode an address exactly when it lies outside the window (R50). -/
theorem windowOffset_eq_none_iff (addr : Nat) :
    windowOffset addr = none ↔ addr < Config.base ∨ Config.base + 0x200 ≤ addr := by
  rw [windowOffset, Config.windowSize]
  split <;> simp <;> omega

/-- A legal access at an aligned offset reaches it (R53). -/
theorem reach_base_add (off : Nat) (h : off < 0x200) (ha : off % 4 = 0) : reach (Config.base + off) 4 = .ok off := by
  have := base_mod_four
  have hm : (Config.base + off) % 4 = 0 := by omega
  simp [reach, windowOffset_base_add off h, legalForm, hm]

/-- An ill-formed access in the window is a bus error (R53, R154). -/
theorem reach_bad_form (addr size : Nat) (h : (windowOffset addr).isSome = true) (hf : legalForm addr size = false) :
    reach addr size = .error .busError := by
  obtain ⟨off, ho⟩ := Option.isSome_iff_exists.mp h
  simp [reach, ho, hf]

/-- An access outside the window is not decoded (R50). -/
theorem reach_outside (addr size : Nat) (h : windowOffset addr = none) :
    reach addr size = .error (.outsideWindow addr) := by simp [reach, h]

/-- What a host access can do: read the register at the offset it reaches, write it, be answered by a bus error, or fault
because it is outside the window. -/
theorem hostAccess_eq (a : Access) (rest : List HostOp) (s : State) :
    hostAccess a rest s = match a with
      | .read addr size => match reach addr size with
        | .ok off => .next (((s.tick rest).readReg (regAt off)).2.respond (.data ((s.tick rest).readReg (regAt off)).1))
        | .error .busError => .next ((s.tick rest).respond .busError)
        | .error (.outsideWindow addr) => .fault (.outsideWindow addr)
      | .write addr size v => match reach addr size with
        | .ok off => .next (((s.tick rest).writeReg (regAt off) v).respond .ack)
        | .error .busError => .next ((s.tick rest).respond .busError)
        | .error (.outsideWindow addr) => .fault (.outsideWindow addr) := by
  cases a <;> simp only [hostAccess, busAccess] <;> split <;> simp_all [Except.map] <;> split at * <;> simp_all

/-- An access reaches an offset only if it has the legal form and lies in the window (R50, R53). -/
theorem reach_ok {addr size off : Nat} (h : reach addr size = .ok off) :
    size = 4 ∧ addr = Config.base + off ∧ off < 0x200 ∧ off % 4 = 0 := by
  unfold reach at h
  split at h
  · cases h
  · next o ho =>
    split at h
    · next hf =>
      cases h
      have := (windowOffset_eq_some_iff addr off).1 ho
      have hb := base_mod_four
      simp only [legalForm, Bool.and_eq_true, beq_iff_eq] at hf
      omega
    · cases h

/-- The two things a legal read leaves behind: nothing, or, while BUSY, one draw of a free value (R57 (b), R58). -/
theorem readReg_cases (r : Option Reg) (s : State) :
    (s.readReg r).2 = s ∨ (s.phase = .busy ∧ (s.readReg r).2 = { s with draws := s.draws + 1 }) := by
  cases r with
  | none => exact .inl rfl
  | some r =>
    simp only [State.readReg]
    split
    · next h =>
      simp only [State.busy, Bool.and_eq_true, beq_iff_eq] at h
      exact .inr ⟨h.1, rfl⟩
    · exact .inl rfl

/-- The two things a legal write to a register does: while BUSY a guarded one is dropped with OVR, any other acts as while
IDLE (R57). -/
theorem writeReg_cases (r : Reg) (v : Word) (s : State) :
    (s.phase = .busy ∧ r.guarded = true ∧ s.writeReg (some r) v = s.raise .ovr) ∨
    ((s.phase = .idle ∨ r.guarded = false) ∧ s.writeReg (some r) v = s.writeIdle r v) := by
  cases hp : s.phase <;> cases hg : r.guarded <;> simp [State.writeReg, State.busy, hp, hg]

/-- The three things a host access that answers a next state can be: a bus error, a read or a write that reaches an offset. -/
theorem hostAccess_cases {a : Access} {rest : List HostOp} {s t : State} (h : hostAccess a rest s = .next t) :
    t = (s.tick rest).respond .busError ∨
    (∃ addr size off, a = .read addr size ∧ reach addr size = .ok off ∧
      t = ((s.tick rest).readReg (regAt off)).2.respond (.data ((s.tick rest).readReg (regAt off)).1)) ∨
    (∃ addr size off v, a = .write addr size v ∧ reach addr size = .ok off ∧
      t = ((s.tick rest).writeReg (regAt off) v).respond .ack) := by
  rw [hostAccess_eq] at h
  cases a <;> simp only at h <;> split at h
  · next off hr => exact .inr (.inl ⟨_, _, off, rfl, hr, (Host.Outcome.next.inj h).symm⟩)
  · exact .inl (Host.Outcome.next.inj h).symm
  · cases h
  · next off hr => exact .inr (.inr ⟨_, _, off, _, rfl, hr, (Host.Outcome.next.inj h).symm⟩)
  · exact .inl (Host.Outcome.next.inj h).symm
  · cases h

/-- A read of a named register by its address. -/
theorem hostAccess_read_offset (off : Nat) (h : off < 0x200) (ha : off % 4 = 0) (rest : List HostOp) (s : State) :
    hostAccess (.read (Config.base + off) 4) rest s =
      .next (((s.tick rest).readReg (regAt off)).2.respond (.data ((s.tick rest).readReg (regAt off)).1)) := by
  rw [hostAccess_eq]; simp [reach_base_add off h ha]

/-- A write to a named register by its address. -/
theorem hostAccess_write_offset (off : Nat) (h : off < 0x200) (ha : off % 4 = 0) (v : Word) (rest : List HostOp)
    (s : State) :
    hostAccess (.write (Config.base + off) 4 v) rest s = .next (((s.tick rest).writeReg (regAt off) v).respond .ack) := by
  rw [hostAccess_eq]; simp [reach_base_add off h ha]

/-- A poll of `WAIT_IDLE` reads `STATUS`, answers it, and keeps polling while the phase is BUSY (R88). -/
theorem hostPoll_eq (rest : List HostOp) (s : State) :
    hostPoll rest s =
      .next ((s.tick (if s.phase = .busy then .waitIdle :: rest else rest)).respond (.data s.statusWord)) := by
  have hb : s.statusWord.getLsbD 0 = s.busy := by
    simp only [State.statusWord, BitVec.getLsbD_setWidth, BitVec.getLsbD_append]
    simp
  have hr (x : List HostOp) : (s.tick x).readReg (some .status) = (s.statusWord, s.tick x) := by
    simp [State.readReg, Reg.engineOwned, State.regValue, State.statusWord, State.busy]
  rw [hostPoll, Reg.addr, hostAccess_read_offset _ (by decide) (by decide)]
  have : regAt Reg.status.offset = some .status := by decide
  rw [this, hr, hb]
  cases h : s.phase <;> simp [State.busy, h]

end Sys2Proof.Machine
end

