-- ==== Sys2Proof/Laws/Step.lean ====
section
/-!
SUPPORT. Laws/Step.lean: everything a step can do, said once.
-/

namespace Sys2Proof.Machine

/-- Every command completes; what is left is which state (R150): `exec` is its meaning followed by completion. -/
theorem exec_is_next (i : Instr) (s : State) : ∃ t : State, exec i s = .next t := by
  cases i with
  | mvmul b => exact ⟨_, rfl⟩
  | msqr d b => exact ⟨_, rfl⟩
  | minit d => exact ⟨_, rfl⟩
  | combine => simp only [exec, execCombine]; split <;> exact ⟨_, rfl⟩

/-- The four things a step that answers a next state can be: a perform step, nothing left to do, a host access or poll, a
reset. -/
theorem step_cases {s t : State} (h : step s = .next t) :
    (s.engineTurn = true ∧ ∃ i, s.pendingInstr = some i ∧ exec i s = .next t) ∨
    (s.engineTurn = false ∧ s.inputs = [] ∧ t = s) ∨
    (s.engineTurn = false ∧ ∃ a rest, s.inputs = .access a :: rest ∧ hostAccess a rest s = .next t) ∨
    (s.engineTurn = false ∧ ∃ rest, s.inputs = .waitIdle :: rest ∧ hostPoll rest s = .next t) ∨
    (s.engineTurn = false ∧ ∃ lost rest, s.inputs = .reset lost :: rest ∧
      t = State.afterReset s.draws rest s.responses) := by
  unfold step at h
  cases he : s.engineTurn with
  | true =>
    rw [he, if_pos rfl] at h
    cases hp : s.pendingInstr with
    | some i => rw [hp] at h; exact .inl ⟨rfl, i, rfl, h⟩
    | none => rw [hp] at h; cases h
  | false =>
    rw [he, if_neg (by decide)] at h
    unfold hostTurn at h
    split at h
    · next hi => exact .inr (.inl ⟨rfl, hi, (Host.Outcome.next.inj h).symm⟩)
    · next a rest hi => exact .inr (.inr (.inl ⟨rfl, a, rest, hi, h⟩))
    · next rest hi => exact .inr (.inr (.inr (.inl ⟨rfl, rest, hi, h⟩)))
    · next lost rest hi =>
      exact .inr (.inr (.inr (.inr ⟨rfl, lost, rest, hi, (Host.Outcome.next.inj h).symm⟩)))

/-- On the engine's turn with a command in `PENDING`, the step is its perform step. -/
theorem step_of_engineTurn {s : State} {i : Instr} (he : s.engineTurn = true) (hp : s.pendingInstr = some i) :
    step s = exec i s := by simp [step, he, hp]

/-- With nothing left to come an IDLE machine stays as it is (R161). -/
theorem step_of_nil {s : State} (he : s.engineTurn = false) (hi : s.inputs = []) : step s = .next s := by
  simp [step, he, hostTurn, hi]

/-- A reset at the head of the host's operations. -/
theorem step_of_reset {s : State} {lost : Option Access} {rest : List HostOp} (he : s.engineTurn = false)
    (hi : s.inputs = .reset lost :: rest) : step s = .next (State.afterReset s.draws rest s.responses) := by
  simp only [step, he, hostTurn, hi, State.resetEvent, Bool.false_eq_true, if_false]

/-- The host's turn with an access at the head of its operations. -/
theorem step_of_access {s : State} {a : Access} {rest : List HostOp} (he : s.engineTurn = false)
    (hi : s.inputs = .access a :: rest) : step s = hostAccess a rest s := by
  simp [step, he, hostTurn, hi]

/-- The host's turn with a poll at the head of its operations. -/
theorem step_of_waitIdle {s : State} {rest : List HostOp} (he : s.engineTurn = false)
    (hi : s.inputs = .waitIdle :: rest) : step s = hostPoll rest s := by
  simp [step, he, hostTurn, hi]

/-- A read at a legal offset at the head of the host's operations (R56, R57). -/
theorem step_of_read_at {s : State} (off : Nat) (h : off < 0x200) (ha : off % 4 = 0) {rest : List HostOp}
    (he : s.engineTurn = false) (hi : s.inputs = .access (.read (Config.base + off) 4) :: rest) :
    step s = .next (((s.tick rest).readReg (regAt off)).2.respond (.data ((s.tick rest).readReg (regAt off)).1)) := by
  rw [step_of_access he hi, hostAccess_read_offset off h ha]

/-- A write at a legal offset at the head of the host's operations (R56, R57). -/
theorem step_of_write_at {s : State} (off : Nat) (h : off < 0x200) (ha : off % 4 = 0) {v : Word} {rest : List HostOp}
    (he : s.engineTurn = false) (hi : s.inputs = .access (.write (Config.base + off) 4 v) :: rest) :
    step s = .next (((s.tick rest).writeReg (regAt off) v).respond .ack) := by
  rw [step_of_access he hi, hostAccess_write_offset off h ha]

end Sys2Proof.Machine
end

