-- ==== Sys2Proof/Tests/Slice0.lean ====
section
/-!
SUPPORT. Tests/Slice0.lean: words written out from spec 30, the vectors of spec 95 on single operations, the checks of
WellFormed refusing ill-formed fields, and for every statement with hypotheses a state that meets them.
-/

namespace Sys2Proof.Tests

open Sys2Proof.Machine

/-! ### WellFormed: each check refuses (R85) -/

theorem test_opcode_zero_refused : ({ op := 0, src := 0, dst := 0, rsv := 0 } : Cmdw).opDefined = false := by decide
theorem test_opcode_five_refused : ({ op := 5, src := 0, dst := 0, rsv := 0 } : Cmdw).wellFormed = false := by decide
theorem test_reserved_refused : ({ op := 2, src := 0, dst := 0, rsv := 1 } : Cmdw).rsvZero = false := by decide
theorem test_mvmul_dst_refused : ({ op := 1, src := 0, dst := 1, rsv := 0 } : Cmdw).unusedZero = false := by decide
theorem test_minit_src_refused : ({ op := 3, src := 1, dst := 0, rsv := 0 } : Cmdw).unusedZero = false := by decide
theorem test_combine_src_refused : ({ op := 4, src := 1, dst := 0, rsv := 0 } : Cmdw).wellFormed = false := by decide

/-! ### Decoding: the words of R81's layout `R…R d s oooo`, bit by bit (R83, R84) -/

theorem test_decode_mvmul_1 : decode 0b00000000000000000000000000010001#32 = .ok (.mvmul .mat1) := by decide
theorem test_decode_mvmul_0 : decode 0b00000000000000000000000000000001#32 = .ok (.mvmul .mat0) := by decide
theorem test_decode_msqr_01 : decode 0b00000000000000000000000000010010#32 = .ok (.msqr .mat0 .mat1) := by decide
theorem test_decode_msqr_10 : decode 0b00000000000000000000000000100010#32 = .ok (.msqr .mat1 .mat0) := by decide
theorem test_decode_minit_1 : decode 0b00000000000000000000000000100011#32 = .ok (.minit .mat1) := by decide
theorem test_decode_combine : decode 0b00000000000000000000000000000100#32 = .ok .combine := by decide
theorem test_decode_rsv_bit6 : decode 0x00000042#32 = .error .reserved := by decide
theorem test_decode_minit_src : decode 0x00000013#32 = .error .mustBeZero := by decide
theorem test_decode_op0 : decode 0x00000000#32 = .error .opcode := by decide
theorem test_decode_bytes : decodeBytes [0x12#8, 0#8, 0#8, 0#8] = .ok (.msqr .mat0 .mat1, []) := by decide
theorem test_decode_short : decodeBytes [0x12#8] = .error .short := by decide

/-! ### A small state for single steps -/

/-- An IDLE block with both banks zero and nothing to come. -/
def idleState : State := { State.reset with mat0 := gf2Zero, mat1 := gf2Zero, pending := 0#32 }

/-- A BUSY block with `w` pending and `k` host accesses to come before its perform step. -/
def busyState (w : Word) (k : Nat) : State := { idleState with phase := .busy, pending := w, wait := k }

/-- The state a command leaves, for a test to look at. -/
def resultOf (o : Host.Outcome State Fault Refusal) : State :=
  match o with
  | .next t => t
  | .fault _ => idleState
  | .refused _ => idleState

/-! ### Vectors of spec 95: V-MV, V-SQ, V-MI, V-CB -/

theorem test_mvmul_odd0_3 :
    (resultOf (exec (.mvmul .mat0) { idleState with mat0 := odd0, vec := 3#32 })).result = 0xEDB88321#32 := by decide
theorem test_mvmul_odd0_ones :
    (resultOf (exec (.mvmul .mat1) { idleState with mat1 := odd0, vec := 0xFFFFFFFF#32 })).result = 0x92477CDF#32 := by decide
theorem test_msqr_01 :
    ((resultOf (exec (.msqr .mat0 .mat1) { idleState with mat1 := odd0 })).mat0).toList.take 3 =
      [0x76DC4190#32, 0xEDB88320#32, 0x00000001#32] := by decide
theorem test_msqr_in_place :
    ((resultOf (exec (.msqr .mat0 .mat0) { idleState with mat0 := gf2Square odd0 })).mat0).toList.take 5 =
      [0x1DB71064#32, 0x3B6E20C8#32, 0x76DC4190#32, 0xEDB88320#32, 0x00000001#32] := by decide
theorem test_minit_1 :
    ((resultOf (exec (.minit .mat1) idleState)).mat1)[31] = 0x40000000#32 ∧ (resultOf (exec (.minit .mat1) idleState)).mat0 = gf2Zero := by
  decide
theorem test_combine_zero_length :
    (resultOf (exec .combine { idleState with crc1 := 0x3610A686#32, crc2 := 0xDEADBEEF#32 })).result = 0x3610A686#32 := by
  decide
theorem test_combine_hello_world :
    (resultOf (exec .combine { idleState with crc1 := 0x3610A686#32, crc2 := 0x3A771143#32, len2Lo := 5#32 })).result =
      0xF9EB20AD#32 := by decide

/-! ### V-IF: the interface and its errors -/

theorem test_illegal_word_sets_cmderr : (idleState.writeReg (regAt 0x000) 0x00000013#32).statusWord = 0x00000004#32 := by decide
theorem test_accept_clears_done_keeps_cmderr :
    (({ idleState with done := true, cmderr := true } : State).writeReg (regAt 0x000) 0x00000004#32).statusWord =
      0x00000005#32 := by decide
theorem test_busy_write_sets_ovr : ((busyState 4#32 1).writeReg (regAt 0x008) 7#32).statusWord = 0x00000009#32 := by decide
theorem test_busy_illegal_word_sets_ovr_only :
    ((busyState 4#32 1).writeReg (regAt 0x000) 0x00000000#32).statusWord = 0x00000009#32 := by decide
theorem test_w1c : (({ idleState with done := true, cmderr := true, ovr := true } : State).writeReg (regAt 0x004)
    0x00000004#32).statusWord = 0x0000000A#32 := by decide
theorem test_row_write_then_read :
    ((idleState.writeReg (regAt 0x1FC) 0x12345678#32).readReg (regAt 0x1FC)).1 = 0x12345678#32 := by decide
theorem test_reserved_read : (idleState.readReg (regAt 0x020)).1 = 0#32 := by decide
theorem test_misaligned_form : legalForm 0x006 4 = false ∧ legalForm 0x004 2 = false ∧ legalForm 0x004 4 = true := by decide

/-! ### The spec's reference CRC values, for the CRC of the statements (GK2) -/

theorem test_crc32_a : crc32 [0x61#8] = 0xE8B7BE43#32 := by decide
theorem test_crc32_zero_byte : crc32 [0x00#8] = 0xD202EF8D#32 := by decide

/-! ### Witnesses: a state that meets the hypotheses of each statement that has some -/

/-- An IDLE block about to receive one host operation. -/
def idleWith (op : HostOp) : State := { idleState with inputs := [op] }

/-- A BUSY block, its perform step not yet due, about to receive one host operation. -/
def busyWith (op : HostOp) : State := { busyState 4#32 2 with inputs := [op] }

theorem test_witness_idleAccesses (r : Reg) (v : Word) (off : Nat) :
    (idleWith (readOp r)).phase = .idle ∧ HostNext (idleWith (readOp r)) (readOp r) [] ∧
    HostNext (idleWith (writeOp r v)) (writeOp r v) [] ∧
    HostNext (idleWith (.access (.read (Config.base + off) 4))) (.access (.read (Config.base + off) 4)) [] ∧
    HostNext (idleWith (.access (.write (Config.base + off) 4 v))) (.access (.write (Config.base + off) 4 v)) [] :=
  ⟨rfl, ⟨rfl, rfl⟩, ⟨rfl, rfl⟩, ⟨rfl, rfl⟩, ⟨rfl, rfl⟩⟩

theorem test_witness_busyAccesses (r : Reg) (v : Word) (off : Nat) :
    (busyWith (readOp r)).phase = .busy ∧ HostNext (busyWith (readOp r)) (readOp r) [] ∧
    HostNext (busyWith (writeOp r v)) (writeOp r v) [] ∧
    HostNext (busyWith (.access (.read (Config.base + off) 4))) (.access (.read (Config.base + off) 4)) [] ∧
    HostNext (busyWith (.access (.write (Config.base + off) 4 v))) (.access (.write (Config.base + off) 4 v)) [] :=
  ⟨rfl, ⟨rfl, rfl⟩, ⟨rfl, rfl⟩, ⟨rfl, rfl⟩, ⟨rfl, rfl⟩⟩

/-- The ends of the reserved range and its neighbours (R52, R54). -/
theorem test_witness_reservedBounds :
    regAt 0x01C = some .result ∧ regAt 0x020 = none ∧ regAt 0x0FC = none ∧ regAt 0x100 = some (.row .mat0 0) ∧
    regAt 0x17C = some (.row .mat0 31) ∧ regAt 0x180 = some (.row .mat1 0) ∧ regAt 0x1FC = some (.row .mat1 31) := by decide

theorem test_witness_decode_ok : decode 0x00000023#32 = .ok (.minit .mat1) ∧ (0x23 : Nat) < 2 ^ 32 := by decide

theorem test_witness_illegalIdle :
    (∀ i, decode 0x80000004#32 ≠ .ok i) ∧ (idleWith (writeOp .cmd 0x80000004#32)).phase = .idle ∧
    HostNext (idleWith (writeOp .cmd 0x80000004#32)) (writeOp .cmd 0x80000004#32) [] :=
  ⟨fun i => (show decode 0x80000004#32 = .error .reserved by decide) ▸ nofun, rfl, rfl, rfl⟩

/-- The legal form of R86 at its two ends, and the engine's turn of the same statement. -/
theorem test_witness_cmdWrite :
    (0x00000011#32).extractLsb' 6 26 = 0#26 ∧ (0x00000011#32).extractLsb' 0 4 = 1#4 ∧ (0x00000011#32).getLsbD 5 = false ∧
    ¬ (0x00000042#32).extractLsb' 6 26 = 0#26 ∧
    (busyState 0x00000032#32 0).engineTurn = true ∧ decode (busyState 0x00000032#32 0).pending = .ok (.msqr .mat1 .mat1) := by
  decide

theorem test_witness_busError :
    Config.base ≤ Config.base + 0x1FE ∧ Config.base + 0x1FE < Config.base + 0x200 ∧ (Config.base + 0x1FE) % 4 ≠ 0 ∧
    HostNext (busyWith (.access (.read (Config.base + 0x1FE) 4))) (.access (.read (Config.base + 0x1FE) 4)) [] ∧
    HostNext (idleWith (.access (.write Config.base 2 0#32))) (.access (.write Config.base 2 0#32)) [] :=
  ⟨by omega, by omega, by have := base_mod_four; omega, ⟨rfl, rfl⟩, ⟨rfl, rfl⟩⟩

/-- A host access outside the window, which faults. -/
theorem test_witness_outside :
    step (idleWith (.access (.read (Config.base + 0x200) 4))) = .fault (.outsideWindow (Config.base + 0x200)) := by
  rw [step_of_access rfl rfl, hostAccess_eq]
  simp [reach_outside _ 4 ((windowOffset_eq_none_iff (Config.base + 0x200)).2 (.inr (by omega)))]

theorem test_witness_readStep : ∃ t, step (idleWith (readOp .vec)) = .next t ∧
    HostNext (idleWith (readOp .vec)) (readOp .vec) [] := by
  exact ⟨_, step_of_read_at 0x018 (by decide) (by decide) rfl rfl, rfl, rfl⟩

/-- A bus error's answer, and a busy block on which no access raises CMDERR. -/
theorem test_witness_oneCondition :
    (∃ t, step (busyWith (.access (.read Config.base 2))) = .next t ∧ t.responses.head? = some .busError) ∧
    (∃ t, step { busyWith (writeOp .cmd 0#32) with cmderr := true } = .next t ∧ t.cmderr = true) ∧
    (∃ t, step { idleWith (readOp .vec) with ovr := true } = .next t ∧ t.ovr = true) := by
  have hb : windowOffset Config.base = some 0 := windowOffset_base_add 0 (by decide)
  refine ⟨⟨((busyWith (.access (.read Config.base 2))).tick []).respond .busError, ?_, rfl⟩, ⟨_, step_of_write_at 0x000 (by decide) (by decide) rfl rfl, rfl⟩, ?_⟩
  · rw [step_of_access rfl rfl, hostAccess_eq]
    simp [reach_bad_form Config.base 2 (by simp [hb]) (by simp [legalForm])]
  · exact ⟨_, step_of_read_at 0x018 (by decide) (by decide) rfl rfl, rfl⟩

/-- A repeated write, IDLE and BUSY. -/
theorem test_witness_repeatedWrite :
    HostNext { idleState with inputs := [writeOp .vec 5#32, writeOp .vec 5#32] } (writeOp .vec 5#32) [writeOp .vec 5#32] ∧
    HostNext { busyState 4#32 3 with inputs := [writeOp .vec 5#32, writeOp .vec 5#32] } (writeOp .vec 5#32) [writeOp .vec 5#32] :=
  ⟨⟨rfl, rfl⟩, ⟨rfl, rfl⟩⟩

theorem test_witness_reset (a : Option Access) :
    HostNext (idleWith (.reset a)) (.reset a) [] ∧ HostNext (busyWith (.reset a)) (.reset a) [] := ⟨⟨rfl, rfl⟩, ⟨rfl, rfl⟩⟩

theorem test_witness_earlyStop : (3#32 : Word) >>> 2 = 0#32 := by decide

/-- MVMUL's corner cases: zero vector, basis vector, all ones, identity bank, the example. -/
theorem test_witness_mvmulCorners :
    idleState.vec = 0#32 ∧ ({ idleState with vec := 1#32 <<< 31 } : State).vec = 1#32 <<< (31 : Fin 32).val ∧
    ({ idleState with vec := 0xFFFFFFFF#32 } : State).vec = 0xFFFFFFFF#32 ∧
    ({ idleState with mat1 := gf2Identity } : State).bank .mat1 = gf2Identity ∧
    (({ idleState with mat0 := odd0, vec := 3#32 } : State).bank .mat0 = odd0 ∧
      ({ idleState with mat0 := odd0, vec := 3#32 } : State).vec = 3#32) :=
  ⟨rfl, rfl, rfl, rfl, rfl, rfl⟩

/-- MSQR's corner cases: identity, zero and all-ones banks, and `ODD0`. -/
theorem test_witness_msqrCorners :
    ({ idleState with mat0 := gf2Identity } : State).bank .mat0 = gf2Identity ∧ idleState.bank .mat1 = gf2Zero ∧
    (∀ n : Fin 32, (({ idleState with mat0 := Vector.ofFn fun _ => 0xFFFFFFFF#32 } : State).bank .mat0)[n] = 0xFFFFFFFF#32) ∧
    ({ idleState with mat1 := odd0 } : State).bank .mat1 = odd0 := by
  refine ⟨rfl, rfl, fun n => ?_, rfl⟩
  simp

/-- A zero length, and lengths of odd and of even bit length. -/
theorem test_witness_lengths :
    (idleState.len2Lo = 0#32 ∧ idleState.len2Hi = 0#32 ∧ idleState.lengthNat = 0) ∧
    ({ idleState with len2Lo := 1#32 } : State).lengthNat ≠ 0 ∧ Nat.size 1 % 2 = 1 ∧
    ({ idleState with len2Hi := 0x80000000#32 } : State).lengthNat = 2 ^ 63 ∧ Nat.size (2 ^ 63) % 2 = 0 := by
  refine ⟨by decide, by decide, by simp, by decide, ?_⟩
  rw [Nat.size_pow]

/-- A counter that is not zero, with a pass of each parity. -/
theorem test_witness_passes :
    (2#64 : BitVec 64) ≠ 0#64 ∧ 1 < Nat.size (2#64 : BitVec 64).toNat ∧ 0 % 2 = 0 ∧ 1 % 2 = 1 := by
  refine ⟨by decide, ?_, rfl, rfl⟩
  rw [Nat.lt_size]; decide

theorem test_witness_concatenation :
    let s : State := { idleState with crc1 := crc32 [0x61#8], crc2 := crc32 [0x00#8], len2Lo := 1#32 }
    s.crc1 = crc32 [0x61#8] ∧ s.crc2 = crc32 [0x00#8] ∧ s.lengthNat = [(0x00#8 : Byte)].length := ⟨rfl, rfl, rfl⟩

/-- Two different states that agree on every operand. -/
theorem test_witness_sameOperands :
    let s := idleState
    let t := { idleState with ovr := true }
    s ≠ t ∧ s.bank .mat0 = t.bank .mat0 ∧ s.vec = t.vec ∧ s.crc1 = t.crc1 ∧ s.crc2 = t.crc2 ∧ s.lengthNat = t.lengthNat ∧
    (∃ s' t', exec (.mvmul .mat0) s = .next s' ∧ exec (.mvmul .mat0) t = .next t') ∧
    (∃ s' t', exec (.msqr .mat1 .mat0) s = .next s' ∧ exec (.msqr .mat1 .mat0) t = .next t') ∧
    (∃ s' t', exec .combine s = .next s' ∧ exec .combine t = .next t') :=
  ⟨fun h => Bool.noConfusion (congrArg State.ovr h), rfl, rfl, rfl, rfl, rfl, ⟨_, _, rfl, rfl⟩, ⟨_, _, rfl, rfl⟩,
    ⟨(exec_is_next .combine idleState).choose, (exec_is_next .combine { idleState with ovr := true }).choose,
      (exec_is_next .combine idleState).choose_spec, (exec_is_next .combine { idleState with ovr := true }).choose_spec⟩⟩

theorem test_witness_engineTurn :
    (busyState 0x00000003#32 0).engineTurn = true ∧ (busyWith .waitIdle).engineTurn = false ∧
    decode (busyState 0x00000003#32 0).pending = .ok (.minit .mat0) := by decide

/-- A BUSY state that meets the invariant and takes a step, and stays BUSY. -/
theorem test_witness_busyStep :
    (busyWith .waitIdle).phase = .busy ∧ (busyWith .waitIdle).engineInv = true ∧
    ∃ t, step (busyWith .waitIdle) = .next t ∧ t.phase = .busy :=
  ⟨rfl, by decide, _, by rw [step_of_waitIdle rfl rfl, hostPoll_eq], rfl⟩

theorem test_witness_inWindow :
    (idleWith (readOp .crc1)).engineInv = true ∧ ∀ op ∈ (idleWith (readOp .crc1)).inputs.head?, op.inWindow = true := by
  refine ⟨by decide, ?_⟩
  intro op h
  obtain rfl : readOp .crc1 = op := by simpa [idleWith] using h
  simp [readOp, HostOp.inWindow, Reg.addr, windowOffset_base_add Reg.crc1.offset (by decide)]

/-- The `STATUS` bits: each is cleared by a W1C write; DONE is cleared by acceptance and set by a perform step. -/
theorem test_witness_statusBits :
    (∃ t, step { idleWith (writeOp .status 0xE#32) with done := true, cmderr := true, ovr := true } = .next t ∧
      t.done = false ∧ t.cmderr = false ∧ t.ovr = false) ∧
    (∃ t, step { idleWith (writeOp .cmd 4#32) with done := true } = .next t ∧ t.done = false) ∧
    (busyState 3#32 0).done = false ∧ ∃ t, step (busyState 3#32 0) = .next t ∧ t.done = true :=
  ⟨⟨_, step_of_write_at 0x004 (by decide) (by decide) rfl rfl, rfl, rfl, rfl⟩,
    ⟨_, step_of_write_at 0x000 (by decide) (by decide) rfl rfl, rfl⟩, rfl, _, rfl, rfl⟩

/-- The error bits are set by an illegal word while IDLE and by a guarded write while BUSY. -/
theorem test_witness_errorBits :
    (∃ t, step (idleWith (writeOp .cmd 0#32)) = .next t ∧ (idleWith (writeOp .cmd 0#32)).cmderr = false ∧ t.cmderr = true) ∧
    (∃ t, step (busyWith (writeOp .crc2 0#32)) = .next t ∧ (busyWith (writeOp .crc2 0#32)).ovr = false ∧ t.ovr = true) :=
  ⟨⟨_, step_of_write_at 0x000 (by decide) (by decide) rfl rfl, rfl, rfl⟩,
    ⟨_, step_of_write_at 0x00C (by decide) (by decide) rfl rfl, rfl, rfl⟩⟩

/-- The BUSY hazard: one access that keeps the rule, one that breaks it. -/
theorem test_witness_busyHazard :
    (busyWith (readOp .crc1)).phase = .busy ∧ (Access.read Reg.crc1.addr 4).breaksBusyHazard = false ∧
    (Access.write Reg.crc1.addr 4 0#32).breaksBusyHazard = true ∧ Reg.crc1.addr % 4 = 0 ∧
    HostNext (busyWith (writeOp .crc1 0#32)) (writeOp .crc1 0#32) [] := by
  have h : windowOffset Reg.crc1.addr = some 0x008 := windowOffset_base_add 0x008 (by decide)
  have hr : regAt 0x008 = some .crc1 := by decide
  have hb := base_mod_four
  refine ⟨rfl, by simp [Access.breaksBusyHazard, h, hr, Reg.engineOwned], by simp [Access.breaksBusyHazard, h, hr, Reg.guarded],
    ?_, rfl, rfl⟩
  simp only [Reg.addr, Reg.offset]; omega

/-- An IDLE step that is no reset: the last operand register and the last row are written, the others stay, and so does
`RESULT`, written or not. -/
theorem test_witness_idleStep (v : Word) (r : Reg) (hr : r ∈ [Reg.vec, .result, .row .mat1 31]) :
    (idleWith (writeOp r v)).phase = .idle ∧
    (∃ t, step (idleWith (writeOp r v)) = .next t ∧ t.regValue r = (if r = .result then idleState.result else v)) ∧
    ∀ lost rest, (idleWith (writeOp r v)).inputs ≠ .reset lost :: rest := by
  refine ⟨rfl, ?_, fun _ _ h => by simp [idleWith, writeOp] at h⟩
  simp only [List.mem_cons, List.not_mem_nil, or_false] at hr
  rcases hr with rfl | rfl | rfl
  · exact ⟨_, step_of_write_at 0x018 (by decide) (by decide) rfl rfl, rfl⟩
  · exact ⟨_, step_of_write_at 0x01C (by decide) (by decide) rfl rfl, rfl⟩
  · refine ⟨_, step_of_write_at 0x1FC (by decide) (by decide) rfl rfl, ?_⟩
    have h : regAt 0x1FC = some (.row .mat1 31) := by decide
    rw [h]
    exact Vector.getElem_set_self (by decide)

theorem test_witness_eitherOrder : (busyWith (writeOp .crc1 0#32)).phase = .busy ∧
    decode (busyWith (writeOp .crc1 0#32)).pending = .ok .combine ∧
    (busyWith (writeOp .crc1 0#32)).inputs = [writeOp .crc1 0#32] := ⟨rfl, by decide, rfl⟩

/-- A BUSY block that waits for two accesses: the host polls, or resets it first. -/
theorem test_witness_liveness (op : HostOp) (h : op ∈ [HostOp.waitIdle, .reset none]) :
    (busyWith op).phase = .busy ∧ decode (busyWith op).pending = .ok .combine ∧
    (∀ o ∈ (busyWith op).inputs, o.inWindow = true) ∧
    (op = .reset none → HostNext (busyWith op) (.reset none) []) := by
  simp only [List.mem_cons, List.not_mem_nil, or_false] at h
  rcases h with rfl | rfl <;> decide

theorem test_witness_crc32Combine (c1 c2 : Word) (x : BitVec 64) :
    ({ idleState with inputs := crc32Combine c1 c2 x } : State).phase = .idle ∧
    ({ idleState with inputs := crc32Combine c1 c2 x } : State).inputs = crc32Combine c1 c2 x ++ [] :=
  ⟨rfl, (List.append_nil _).symm⟩

theorem test_witness_conditionCode : Condition.ovr.code = some 3 := rfl

/-- The very next step after `withFetchWord` performs the command (log entry 11). -/
theorem test_withFetchWord_runs : step (State.reset.withFetchWord 32 0x00000023) =
    exec (.minit .mat1) (State.reset.withFetchWord 32 0x00000023) := by
  exact step_of_engineTurn (by rfl) (by rfl)

end Sys2Proof.Tests
end

section
/-!
PROOFS. The length COMBINE tests, as a bit vector and as a number, and what a perform step writes, read off the state it
answers. With these, the noninterference of R12 (O32) follows by rewriting with the agreements.
-/

namespace Sys2Proof.Machine

/-! ### The 64-bit length (R25) -/

/-- The bit vector COMBINE counts down is the number `LEN2_HI * 2^32 + LEN2_LO`. -/
theorem State.toNat_len2 (s : State) : s.len2.toNat = s.lengthNat := by
  rw [State.len2, BitVec.toNat_append, ← Nat.shiftLeft_add_eq_or_of_lt s.len2Lo.isLt, Nat.shiftLeft_eq]

/-- COMBINE's test for a zero length (R132), on the number. -/
theorem State.len2_eq_zero_iff (s : State) : s.len2 = 0#64 ↔ s.lengthNat = 0 := by
  rw [← s.toNat_len2, BitVec.toNat_eq, BitVec.toNat_ofNat, Nat.zero_mod]

/-- The number determines the bit vector. -/
theorem State.len2_eq_of_lengthNat_eq {s t : State} (h : s.lengthNat = t.lengthNat) : s.len2 = t.len2 :=
  BitVec.eq_of_toNat_eq (by rw [s.toNat_len2, t.toNat_len2, h])

/-! ### What a perform step writes -/

section
variable {s s' : State}

/-- MVMUL's result (R105). -/
theorem result_of_exec_mvmul {b : Bank} (h : exec (.mvmul b) s = .next s') :
    s'.result = gf2Apply (s.bank b) s.vec := by
  obtain rfl := Host.Outcome.next.inj h
  rw [State.complete_result]

/-- MSQR's destination bank: the square of the old source bank, in place or not (R103, R106). -/
theorem bank_of_exec_msqr {d b : Bank} (h : exec (.msqr d b) s = .next s') : s'.bank d = gf2Square (s.bank b) := by
  obtain rfl := Host.Outcome.next.inj h
  rw [State.complete_bank, State.bank_setBank_same]

/-- COMBINE's result for a zero length (R132). -/
theorem result_of_exec_combine_of_zero (hz : s.lengthNat = 0) (h : exec .combine s = .next s') : s'.result = s.crc1 := by
  have hc : execCombine s = .next s' := h
  rw [execCombine_of_zero (s.len2_eq_zero_iff.mpr hz)] at hc
  obtain rfl := Host.Outcome.next.inj hc
  rw [State.complete_result]

/-- COMBINE's result and banks for a non-zero length: what the loop of R131 leaves, started from `CRC1` and `LEN2` alone. -/
theorem exec_combine_writes_combineResult (hz : s.lengthNat ≠ 0) (h : exec .combine s = .next s') :
    s'.result = (combineResult s.crc1 s.len2).c ^^^ s.crc2 ∧
    s'.mat0 = (combineResult s.crc1 s.len2).even ∧ s'.mat1 = (combineResult s.crc1 s.len2).odd := by
  have hc : execCombine s = .next s' := h
  rw [execCombine_of_ne_zero (mt s.len2_eq_zero_iff.mp hz)] at hc
  obtain rfl := Host.Outcome.next.inj hc
  exact ⟨by rw [State.complete_result, State.takeCombine_result], by rw [State.complete_mat0, State.takeCombine_mat0],
    by rw [State.complete_mat1, State.takeCombine_mat1]⟩

end

/-! ### Noninterference (R12, C6) -/

/-- COMBINE on two states that agree on `CRC1`, `CRC2` and `LEN2`: the same result and, past the zero-length case, the same
banks, whatever the banks held before. -/
theorem exec_combine_congr {s t s' t' : State} (h1 : s.crc1 = t.crc1) (h2 : s.crc2 = t.crc2)
    (hn : s.lengthNat = t.lengthNat) (hs : exec .combine s = .next s') (ht : exec .combine t = .next t') :
    s'.result = t'.result ∧ (s.lengthNat ≠ 0 → s'.mat0 = t'.mat0 ∧ s'.mat1 = t'.mat1) := by
  by_cases hz : s.lengthNat = 0
  · have hr : s'.result = t'.result := by
      rw [result_of_exec_combine_of_zero hz hs, result_of_exec_combine_of_zero (hn ▸ hz) ht, h1]
    exact ⟨hr, fun hne => absurd hz hne⟩
  · obtain ⟨hsr, hs0, hs1⟩ := exec_combine_writes_combineResult hz hs
    obtain ⟨htr, ht0, ht1⟩ := exec_combine_writes_combineResult (hn ▸ hz) ht
    have hl : s.len2 = t.len2 := State.len2_eq_of_lengthNat_eq hn
    rw [hsr, htr, hs0, ht0, hs1, ht1, h1, h2, hl]
    exact ⟨rfl, fun _ => ⟨rfl, rfl⟩⟩

/-- Settles O32: each command's output is a function of its operands alone, so equal operands give equal outputs. -/
theorem resultsDependOnlyOnOperands : Obligations.ResultsDependOnlyOnOperands := by
  intro s t
  refine ⟨?mvmul, ?msqr, ?combine⟩
  case mvmul =>
    intro b s' t' hb hv hs ht
    rw [result_of_exec_mvmul hs, result_of_exec_mvmul ht, hb, hv]
  case msqr =>
    intro d b s' t' hb hs ht
    rw [bank_of_exec_msqr hs, bank_of_exec_msqr ht, hb]
  case combine => exact fun _ _ => exec_combine_congr

end Sys2Proof.Machine
end

section
/-!
PROOFS. The control part of the state (spec 10_state.md, 70 R33): what a step can do to the block, said once in terms of the
register a host write reaches, and from it the engine's invariant (O34), the freeze while BUSY (O37) and the `STATUS` bits (O38),
with the reset values (O15, O35) and the dispatch of a step (O33).
-/

namespace Sys2Proof.Machine

/-! ### The reset state (R33) -/

/-- Settles O15: the scalars and `STATUS` by the field lemmas of reset, the rows by their free draws numbered from 0. -/
theorem resetStateHoldsResetValues : Obligations.ResetStateHoldsResetValues := by
  have hbusy : State.reset.busy = false := (State.not_busy_iff _).mpr (State.afterReset_phase ..)
  have hstatus : State.reset.statusWord = 0#32 := by
    rw [State.statusWord, hbusy]
    simp [State.reset]
  have hrows (n : Fin 32) : State.reset.mat0[n] = Config.freeWord n.val ∧
      State.reset.mat1[n] = Config.freeWord (32 + n.val) := by
    constructor
    · rw [State.reset, State.afterReset_mat0_row, Nat.zero_add]
    · rw [State.reset, State.afterReset_mat1_row, Nat.zero_add]
  exact ⟨State.afterReset_crc1 .., State.afterReset_crc2 .., State.afterReset_len2Lo .., State.afterReset_len2Hi ..,
    State.afterReset_vec .., State.afterReset_result .., hstatus, State.afterReset_phase .., rfl, hrows⟩

/-! ### The command `PENDING` holds, and the dispatch of a step (R30, R60) -/

/-- The decoder without the name of the rejection accepts the same words. -/
theorem decodeWord_eq_some_iff (w : Word) (i : Instr) : decodeWord w = some i ↔ decode w = .ok i := by
  rw [decodeWord]
  cases decode w <;> simp [Except.toOption]

/-- A bus word is its own entry in the opcode table's numbering. -/
theorem tableWord_toNat (w : Word) : tableWord 32 w.toNat = some w := by
  have h : w.toNat % 2 ^ 32 = w.toNat := Nat.mod_eq_of_lt w.isLt
  rw [tableWord, h, if_pos w.isLt, BitVec.ofNat_toNat, BitVec.setWidth_eq]

/-- `withFetchWord` latches the word itself. -/
theorem State.withFetchWord_pending (s : State) (w : Word) : (s.withFetchWord 32 w.toNat).pending = w := by
  rw [State.withFetchWord, tableWord_toNat, Option.getD_some]

/-- A step after `withFetchWord` is the engine's. -/
theorem State.withFetchWord_engineTurn (s : State) (nbits w : Nat) : (s.withFetchWord nbits w).engineTurn = true :=
  (State.engineTurn_iff_busy_and_due _).mpr ⟨rfl, .inl rfl⟩

/-- On the engine's turn the step performs the command that `PENDING` decodes to (R30). -/
theorem step_eq_exec_of_decode {s : State} {i : Instr} (he : s.engineTurn = true) (hd : decode s.pending = .ok i) :
    step s = exec i s :=
  step_of_engineTurn he ((decodeWord_eq_some_iff _ _).mpr hd)

/-- Settles O33: the two branches of a step, and `withFetchWord` as a state of the first. -/
theorem stepPerformsPendingCommand : Obligations.StepPerformsPendingCommand := by
  refine ⟨fun s i => step_eq_exec_of_decode, fun s he => ?host, fun s => ?turn, fun s w i hd => ?fetch⟩
  case host => simp [step, he]
  case turn => rw [State.engineTurn_iff_busy_and_due, List.isEmpty_iff]
  case fetch =>
    exact step_eq_exec_of_decode (s.withFetchWord_engineTurn 32 w.toNat) (by rw [s.withFetchWord_pending w, hd])

/-! ### What a step can do to the block -/

/-- The states agree on the control part of the block: the engine phase, `PENDING` and the `STATUS` bits (R29, R30). -/
abbrev SameControl (s t : State) : Prop :=
  t.phase = s.phase ∧ t.pending = s.pending ∧ t.done = s.done ∧ t.cmderr = s.cmderr ∧ t.ovr = s.ovr

/-- A perform step ends IDLE with DONE set and leaves the sticky error bits alone (R30). -/
theorem exec_control {i : Instr} {s t : State} (h : exec i s = .next t) :
    t.phase = .idle ∧ t.done = true ∧ t.cmderr = s.cmderr ∧ t.ovr = s.ovr := by
  cases i with
  | mvmul | msqr | minit => obtain rfl := Host.Outcome.next.inj h; simp
  | combine =>
    rw [exec, execCombine] at h
    split at h <;> obtain rfl := Host.Outcome.next.inj h <;> simp

/-- An access that reaches a named register is at that register's address (R52). -/
theorem offset_of_regAt {off : Nat} {r : Reg} (h : regAt off = some r) (hlt : off < 0x200) (h4 : off % 4 = 0) :
    r.offset = off := by
  unfold regAt at h
  split_ifs at h <;> cases h <;> simp only [Reg.offset, Fin.val_ofNat] <;> omega

/-- The block agrees with itself. -/
theorem sameBlock_refl (s : State) : SameBlock s s :=
  ⟨⟨rfl, rfl, rfl, rfl, rfl⟩, ⟨rfl, rfl, rfl⟩, rfl, rfl, rfl, rfl, rfl⟩

/-- Counting an access and answering it changes nothing of the block. -/
theorem sameBlock_respond_tick (s : State) (rest : List HostOp) (a : Response) : SameBlock s ((s.tick rest).respond a) :=
  sameBlock_refl s

/-- A legal read changes nothing of the block, whatever value it answers (R58). -/
theorem sameBlock_readReg (s : State) (rest : List HostOp) (r : Option Reg) (a : Response) :
    SameBlock s (((s.tick rest).readReg r).2.respond a) := by
  rcases readReg_cases r (s.tick rest) with h | ⟨-, h⟩ <;> rw [h] <;> exact sameBlock_refl s

/-- A host access either leaves the block alone or is a write to a named register. -/
theorem hostAccess_effect {a : Access} {rest : List HostOp} {s t : State} (h : hostAccess a rest s = .next t) :
    SameBlock s t ∨
    ∃ r v, HostOp.access a = writeOp r v ∧ t = ((s.tick rest).writeReg (some r) v).respond .ack := by
  rcases hostAccess_cases h with rfl | ⟨addr, size, off, rfl, hr, rfl⟩ | ⟨addr, size, off, v, rfl, hr, rfl⟩
  · exact .inl (sameBlock_respond_tick s rest _)
  · exact .inl (sameBlock_readReg s rest _ _)
  · obtain ⟨rfl, rfl, hlt, h4⟩ := reach_ok hr
    cases hreg : regAt off with
    | none => exact .inl (sameBlock_respond_tick s rest _)
    | some r => exact .inr ⟨r, v, by rw [writeOp, Reg.addr, offset_of_regAt hreg hlt h4], rfl⟩

/-- The four things a step can do to the block: perform a command, leave it alone, write a named register, reset. -/
theorem step_effect {s t : State} (h : step s = .next t) :
    (s.engineTurn = true ∧ ∃ i, exec i s = .next t) ∨
    SameBlock s t ∨
    (∃ r v rest, HostNext s (writeOp r v) rest ∧ t = ((s.tick rest).writeReg (some r) v).respond .ack) ∨
    (∃ lost rest, HostNext s (.reset lost) rest ∧ t = State.afterReset s.draws rest s.responses) := by
  rcases step_cases h with
    ⟨he, i, -, hx⟩ | ⟨-, -, rfl⟩ | ⟨he, a, rest, hi, ha⟩ | ⟨-, rest, -, hp⟩ | ⟨he, lost, rest, hi, ht⟩
  · exact .inl ⟨he, i, hx⟩
  · exact .inr (.inl (sameBlock_refl _))
  · rcases hostAccess_effect ha with hs | ⟨r, v, hw, ht⟩
    · exact .inr (.inl hs)
    · exact .inr (.inr (.inl ⟨r, v, rest, ⟨he, hw ▸ hi⟩, ht⟩))
  · rw [hostPoll_eq] at hp
    exact .inr (.inl (Host.Outcome.next.inj hp ▸ sameBlock_respond_tick s _ _))
  · exact .inr (.inr (.inr ⟨lost, rest, ⟨he, hi⟩, ht⟩))

/-- Everything a legal write to a named register does to the control part: while BUSY a guarded one only raises OVR; while
IDLE `CMD` accepts or rejects its word and a data register's write leaves the control part alone; in either phase `STATUS` is
write-one-to-clear and `RESULT` is not written at all (R56, R57, R86). -/
theorem writeReg_effect (r : Reg) (v : Word) (s : State) :
    (s.phase = .busy ∧ r.guarded = true ∧ s.writeReg (some r) v = s.raise .ovr) ∨
    (r = .cmd ∧ s.phase = .idle ∧ (∃ i, decode v = .ok i) ∧ s.writeReg (some r) v = s.accept v) ∨
    (r = .cmd ∧ s.phase = .idle ∧ (∀ i, decode v ≠ .ok i) ∧ s.writeReg (some r) v = s.raise .cmderr) ∨
    (r = .status ∧ s.writeReg (some r) v = s.clearStatus v) ∨
    (s.phase = .idle ∧ SameControl s (s.writeReg (some r) v)) ∨
    (r = .result ∧ s.writeReg (some r) v = s) := by
  rcases writeReg_cases r v s with ⟨hb, hg, hw⟩ | ⟨hu, hw⟩
  · exact .inl ⟨hb, hg, hw⟩
  · rw [hw]
    have hidle (hg : r.guarded = true) : s.phase = .idle := hu.resolve_right (by simp [hg])
    cases r with
    | cmd =>
      cases hd : decodeWord v with
      | some i =>
        have ha : s.writeIdle .cmd v = s.accept v := by simp [State.writeIdle, State.writeCmd, hd]
        exact .inr (.inl ⟨rfl, hidle rfl, ⟨i, (decodeWord_eq_some_iff v i).mp hd⟩, ha⟩)
      | none =>
        have ha : s.writeIdle .cmd v = s.raise .cmderr := by simp [State.writeIdle, State.writeCmd, hd]
        have hn (i : Instr) : decode v ≠ .ok i := by simp [← decodeWord_eq_some_iff, hd]
        exact .inr (.inr (.inl ⟨rfl, hidle rfl, hn, ha⟩))
    | status => exact .inr (.inr (.inr (.inl ⟨rfl, rfl⟩)))
    | result => exact .inr (.inr (.inr (.inr (.inr ⟨rfl, rfl⟩))))
    | row b n =>
      exact .inr (.inr (.inr (.inr (.inl ⟨hidle rfl, by simp [SameControl, State.writeIdle, State.setRow]⟩))))
    | crc1 | crc2 | len2Lo | len2Hi | vec =>
      exact .inr (.inr (.inr (.inr (.inl ⟨hidle rfl, rfl, rfl, rfl, rfl, rfl⟩))))

/-! ### The engine's invariant (R29, R86) -/

/-- The invariant as a statement: a BUSY engine's `PENDING` is a legal command, and its DONE is 0. -/
theorem State.engineInv_iff (s : State) :
    s.engineInv = true ↔ (s.phase = .busy → s.pendingInstr.isSome = true ∧ s.done = false) := by
  cases hp : s.phase <;> simp [State.engineInv, State.busy, hp]

/-- An IDLE block meets the invariant. -/
theorem State.engineInv_of_idle {s : State} (h : s.phase = .idle) : s.engineInv = true :=
  s.engineInv_iff.mpr fun hb => by simp [h] at hb

/-- The invariant carries over to a state with the same phase and `PENDING` in which DONE was not set. -/
theorem State.engineInv_mono {s t : State} (hp : t.phase = s.phase) (hc : t.pending = s.pending)
    (hd : s.done = false → t.done = false) (h : s.engineInv = true) : t.engineInv = true := by
  rw [State.engineInv_iff] at h ⊢
  intro hb
  obtain ⟨hcmd, hdone⟩ := h (hp ▸ hb)
  exact ⟨by rwa [State.pendingInstr, hc], hd hdone⟩

/-- Acceptance of a legal word establishes the invariant (R86). -/
theorem State.engineInv_accept (s : State) {w : Word} {i : Instr} (h : decode w = .ok i) :
    (s.accept w).engineInv = true := by
  have hw := (decodeWord_eq_some_iff w i).mpr h
  simp [State.engineInv_iff, State.pendingInstr, hw]

/-- A write to a named register keeps the invariant. -/
theorem State.engineInv_writeReg {s : State} (r : Reg) (v : Word) (h : s.engineInv = true) :
    (s.writeReg (some r) v).engineInv = true := by
  rcases writeReg_effect r v s with
    ⟨-, -, hw⟩ | ⟨-, -, ⟨i, hd⟩, hw⟩ | ⟨-, -, -, hw⟩ | ⟨-, hw⟩ | ⟨-, hp, hc, hd, -, -⟩ | ⟨-, hw⟩
  · rw [hw]; exact engineInv_mono rfl rfl id h
  · rw [hw]; exact s.engineInv_accept hd
  · rw [hw]; exact engineInv_mono rfl rfl id h
  · rw [hw]; exact engineInv_mono (s := s) rfl rfl (fun h0 => by simp [h0]) h
  · exact engineInv_mono hp hc (fun h0 => hd.trans h0) h
  · rwa [hw]

/-- Settles O35: reset leaves the block IDLE. -/
theorem resetMeetsEngineInvariant : Obligations.ResetMeetsEngineInvariant :=
  ⟨State.engineInv_of_idle (State.afterReset_phase ..), fun _ _ _ => State.engineInv_of_idle (State.afterReset_phase ..)⟩

/-- Settles O34: a perform step and a reset end IDLE, a write to a register keeps the invariant, and every other step leaves
the block alone. -/
theorem stepKeepsEngineInvariant : Obligations.StepKeepsEngineInvariant := by
  intro s t hinv h
  rcases step_effect h with
    ⟨-, i, hx⟩ | ⟨-, -, hd, -, -, hp, hc⟩ | ⟨r, v, rest, -, rfl⟩ | ⟨lost, rest, -, rfl⟩
  · exact State.engineInv_of_idle (exec_control hx).1
  · exact State.engineInv_mono hp hc (fun h0 => hd.trans h0) hinv
  · have htick : (s.tick rest).engineInv = true := hinv
    exact State.engineInv_writeReg r v htick
  · exact State.engineInv_of_idle (State.afterReset_phase ..)

/-! ### The freeze while BUSY (R30, R57) -/

/-- While BUSY a write to a named register is dropped with OVR, clears `STATUS` bits, or meets the read-only `RESULT` (R57). -/
theorem writeReg_of_busy {s : State} (r : Reg) (v : Word) (hb : s.phase = .busy) :
    s.writeReg (some r) v = s.raise .ovr ∨ s.writeReg (some r) v = s.clearStatus v ∨ s.writeReg (some r) v = s := by
  have hni : s.phase ≠ .idle := by simp [hb]
  rcases writeReg_effect r v s with
    ⟨-, -, hw⟩ | ⟨-, hi, -⟩ | ⟨-, hi, -⟩ | ⟨-, hw⟩ | ⟨hi, -⟩ | ⟨-, hw⟩
  · exact .inl hw
  · exact absurd hi hni
  · exact absurd hi hni
  · exact .inr (.inl hw)
  · exact absurd hi hni
  · exact .inr (.inr hw)

/-- While BUSY a write to a named register leaves the operands, the banks, `RESULT` and `PENDING` alone. -/
theorem writeReg_busy_frame {s : State} (r : Reg) (v : Word) (hb : s.phase = .busy) :
    SameOperands s (s.writeReg (some r) v) ∧ SameResults s (s.writeReg (some r) v) ∧
      (s.writeReg (some r) v).pending = s.pending := by
  rcases writeReg_of_busy r v hb with hw | hw | hw <;> rw [hw]
  all_goals exact ⟨⟨rfl, rfl, rfl, rfl, rfl⟩, ⟨rfl, rfl, rfl⟩, rfl⟩

/-- Settles O37: a perform step and a reset end IDLE, and a write while BUSY is dropped or meets `STATUS` or `RESULT`. -/
theorem busyFreezesOperands : Obligations.BusyFreezesOperands := by
  intro s t hb h htb
  rcases step_effect h with
    ⟨-, i, hx⟩ | ⟨hop, hres, -, -, -, -, hc⟩ | ⟨r, v, rest, -, rfl⟩ | ⟨lost, rest, -, rfl⟩
  · obtain ⟨hti, -⟩ := exec_control hx
    simp [hti] at htb
  · exact ⟨hop, hres, hc⟩
  · exact writeReg_busy_frame (s := s.tick rest) r v hb
  · simp at htb

/-! ### The `STATUS` bits (R29) -/

/-- What a write to a named register does to the `STATUS` bits: an error bit is cleared only by a 1 written to it, DONE only so or
by acceptance, and no write sets DONE (R29, R56). -/
theorem writeReg_statusBits (r : Reg) (v : Word) (s : State) :
    (s.cmderr = true → (s.writeReg (some r) v).cmderr = false → r = .status ∧ v.getLsbD 2 = true) ∧
    (s.ovr = true → (s.writeReg (some r) v).ovr = false → r = .status ∧ v.getLsbD 3 = true) ∧
    (s.done = true → (s.writeReg (some r) v).done = false →
      (r = .status ∧ v.getLsbD 1 = true) ∨ (r = .cmd ∧ s.phase = .idle ∧ ∃ i, decode v = .ok i)) ∧
    (s.done = false → (s.writeReg (some r) v).done = false) := by
  rcases writeReg_effect r v s with
    ⟨-, -, hw⟩ | ⟨rfl, hi, hd, hw⟩ | ⟨-, -, -, hw⟩ | ⟨rfl, hw⟩ | ⟨-, -, -, hd, hc, ho⟩ | ⟨-, hw⟩
  · simp +contextual [hw]
  · simp +contextual [hw, hi, hd]
  · simp +contextual [hw]
  · simp +contextual [hw]
  · simp +contextual [hd, hc, ho]
  · simp +contextual [hw]

/-- Settles O38: a perform step sets DONE and keeps the error bits, a reset clears all three, a write to a register acts on them
as R56 says, and every other step leaves the block alone. -/
theorem statusBitsChangeOnlyAsTold : Obligations.StatusBitsChangeOnlyAsTold := by
  intro s t h
  rcases step_effect h with
    ⟨he, i, hx⟩ | ⟨-, -, hd, hc, ho, -, -⟩ | ⟨r, v, rest, hn, rfl⟩ | ⟨lost, rest, hn, rfl⟩
  · obtain ⟨hi, hd, hc, ho⟩ := exec_control hx
    simp +contextual [he, hi, hd, hc, ho]
  · simp +contextual [hd, hc, ho]
  · obtain ⟨hcmderr, hovr, hdone, hset⟩ := writeReg_statusBits r v (s.tick rest)
    refine ⟨fun h1 h0 => ?cmderr, fun h1 h0 => ?ovr, fun h1 h0 => ?done, fun h0 h1 => ?set⟩
    case cmderr =>
      obtain ⟨rfl, hv⟩ := hcmderr h1 h0
      exact ⟨rest, .inr ⟨v, hv, hn⟩⟩
    case ovr =>
      obtain ⟨rfl, hv⟩ := hovr h1 h0
      exact ⟨rest, .inr ⟨v, hv, hn⟩⟩
    case done =>
      rcases hdone h1 h0 with ⟨rfl, hv⟩ | ⟨rfl, hi, i, hv⟩
      · exact ⟨rest, .inr (.inl ⟨v, hv, hn⟩)⟩
      · exact ⟨rest, .inr (.inr ⟨v, i, hv, hi, hn⟩)⟩
    case set => exact absurd (hset h0) (by simpa using h1)
  · have hreset := (⟨lost, hn⟩ : ∃ lost, HostNext s (.reset lost) rest)
    exact ⟨fun _ _ => ⟨rest, .inl hreset⟩, fun _ _ => ⟨rest, .inl hreset⟩, fun _ _ => ⟨rest, .inl hreset⟩,
      fun _ h1 => by simp at h1⟩

end Sys2Proof.Machine
end

section
/-!
PROOFS. The register window (spec 20_memory.md): the register map (O7), what a host access to a register or to a reserved
offset does, IDLE (O8) and BUSY (O9, O10), when the machine faults (O12), that reads and repeated data writes change nothing
more (O14), and what an IDLE step keeps (O42).
-/

namespace Sys2Proof.Machine

/-! ### The register map (R52) -/

/-- Every register lies in the window (R50, R52). -/
theorem Reg.offset_lt (r : Reg) : r.offset < 0x200 := by
  cases r with
  | row b n => cases b <;> simp only [Reg.offset] <;> omega
  | cmd | status | crc1 | crc2 | len2Lo | len2Hi | vec | result => decide

/-- Every register's offset is 4-byte aligned (R52). -/
theorem Reg.offset_aligned (r : Reg) : r.offset % 4 = 0 := by
  cases r with
  | row b n => cases b <;> simp only [Reg.offset] <;> omega
  | cmd | status | crc1 | crc2 | len2Lo | len2Hi | vec | result => decide

/-- A register's offset names it back (R52). -/
@[simp] theorem regAt_offset (r : Reg) : regAt r.offset = some r := by
  cases r with
  | row b n => revert n; cases b <;> decide
  | cmd | status | crc1 | crc2 | len2Lo | len2Hi | vec | result => rfl

/-- The aligned offsets that name no register are the reserved range (R52, R54). -/
theorem regAt_eq_none_iff {off : Nat} (h4 : off % 4 = 0) : regAt off = none ↔ 0x020 ≤ off ∧ off ≤ 0x0FC := by
  unfold regAt
  split_ifs <;> simp <;> omega

/-- Settles O7: the map both ways, and the offsets it leaves out. -/
theorem registerMapMatchesOffsets : Obligations.RegisterMapMatchesOffsets := by
  refine ⟨by decide, fun n => ⟨regAt_offset (.row .mat0 n), regAt_offset (.row .mat1 n)⟩,
    fun r => ⟨regAt_offset r, r.offset_lt, r.offset_aligned⟩, fun off hlt h4 => ⟨regAt_eq_none_iff h4, fun r hr => ?back⟩⟩
  case back => exact offset_of_regAt hr hlt h4

/-! ### A host access that reaches a register or a reserved offset -/

/-- A guarded write while BUSY is dropped and raises OVR (R57 (a)). -/
theorem State.writeReg_of_guarded {s : State} {r : Reg} (hb : s.phase = .busy) (hg : r.guarded = true) (v : Word) :
    s.writeReg (some r) v = s.raise .ovr := if_pos (by simp [hb, hg])

/-- A write that nothing guards just now does what its row of R56 says (R56, R57 (d)). -/
theorem State.writeReg_of_unguarded {s : State} {r : Reg} (hu : s.phase = .idle ∨ r.guarded = false) (v : Word) :
    s.writeReg (some r) v = s.writeIdle r v := if_neg (by rcases hu with h | h <;> simp [h])

@[simp] theorem State.regValue_tick (s : State) (rest : List HostOp) (r : Reg) : (s.tick rest).regValue r = s.regValue r := by
  cases r <;> rfl

@[simp] theorem State.regValue_respond (s : State) (a : Response) (r : Reg) : (s.respond a).regValue r = s.regValue r := by
  cases r <;> rfl

section
variable {s : State} {rest : List HostOp}

/-- A host read of a named register (R87). -/
theorem step_of_readOp {r : Reg} (h : HostNext s (readOp r) rest) :
    step s = .next (((s.tick rest).readReg (some r)).2.respond (.data ((s.tick rest).readReg (some r)).1)) := by
  rw [step_of_read_at r.offset r.offset_lt r.offset_aligned h.1 h.2, regAt_offset]

/-- A host write to a named register (R87). -/
theorem step_of_writeOp {r : Reg} {v : Word} (h : HostNext s (writeOp r v) rest) :
    step s = .next (((s.tick rest).writeReg (some r) v).respond .ack) := by
  rw [step_of_write_at r.offset r.offset_lt r.offset_aligned h.1 h.2, regAt_offset]

/-- A read of a register that the engine does not own just now answers its value and changes nothing (R56, R57 (c)). -/
theorem step_of_readOp_value {r : Reg} (hu : s.phase = .idle ∨ r.engineOwned = false) (h : HostNext s (readOp r) rest) :
    step s = .next (s.afterAccess rest (.data (s.regValue r))) := by
  have hr : (s.tick rest).readReg (some r) = ((s.tick rest).regValue r, s.tick rest) :=
    if_neg (by rcases hu with hi | ho <;> simp [*])
  rw [step_of_readOp h, hr, State.regValue_tick]
  rfl

/-- A read of `RESULT` or a row while BUSY answers a free draw (R57 (b)). -/
theorem step_of_readOp_draw {r : Reg} (hb : s.phase = .busy) (ho : r.engineOwned = true) (h : HostNext s (readOp r) rest) :
    step s = .next { s.afterAccess rest (.data (Config.freeWord s.draws)) with draws := s.draws + 1 } := by
  have hr : (s.tick rest).readReg (some r) = (s.tick rest).draw := if_pos (by simp [hb, ho])
  rw [step_of_readOp h, hr]
  rfl

/-- A write that nothing guards just now does what its row of R56 says (R56, R57 (d)). -/
theorem step_of_writeOp_unguarded {r : Reg} {v : Word} (hu : s.phase = .idle ∨ r.guarded = false)
    (h : HostNext s (writeOp r v) rest) : step s = .next (((s.tick rest).writeIdle r v).respond .ack) := by
  rw [step_of_writeOp h, State.writeReg_of_unguarded (s := s.tick rest) hu]

/-- A guarded write while BUSY is dropped and sets OVR (R57 (a)). -/
theorem step_of_writeOp_guarded {r : Reg} {v : Word} (hb : s.phase = .busy) (hg : r.guarded = true)
    (h : HostNext s (writeOp r v) rest) : step s = .next { s.afterAccess rest .ack with ovr := true } := by
  rw [step_of_writeOp h, State.writeReg_of_guarded (s := s.tick rest) hb hg]
  rfl

end

/-- Settles O10: a reserved offset names no register, in either phase. -/
theorem reservedOffsetsReadZero : Obligations.ReservedOffsetsReadZero := by
  intro s rest off hlo hhi h4
  have hlt : off < 0x200 := by omega
  have hnone : regAt off = none := (regAt_eq_none_iff h4).mpr ⟨hlo, hhi⟩
  refine ⟨fun ⟨he, hi⟩ => ?read, fun v ⟨he, hi⟩ => ?write⟩
  case read => rw [step_of_read_at off hlt h4 he hi, hnone]; rfl
  case write => rw [step_of_write_at off hlt h4 he hi, hnone]; rfl

/-! ### The rows of R56 and R57 -/

/-- `STATUS` as a number: OVR, CMDERR, DONE and BUSY are bits 3 to 0 (R56). -/
theorem State.statusWord_eq_ofNat (s : State) : s.statusWord =
    BitVec.ofNat 32 (8 * s.ovr.toNat + 4 * s.cmderr.toNat + 2 * s.done.toNat + s.busy.toNat) := by
  rw [State.statusWord]
  generalize s.ovr = o, s.cmderr = c, s.done = d, s.busy = b
  revert o c d b
  decide

/-- A 1 written to a bit of `STATUS` clears it, a 0 leaves it (R56). -/
theorem State.clearStatus_eq_ite (s : State) (v : Word) : s.clearStatus v = { s with
    done := if v.getLsbD 1 then false else s.done
    cmderr := if v.getLsbD 2 then false else s.cmderr
    ovr := if v.getLsbD 3 then false else s.ovr } := by
  have hbit (b c : Bool) : (b && !c) = if c then false else b := by cases b <;> cases c <;> rfl
  rw [State.clearStatus, hbit, hbit, hbit]

/-- A `CMD` write while IDLE, by the decoder's answer (R86). -/
theorem State.writeCmd_eq_match (s : State) (v : Word) : s.writeCmd v = match decode v with
    | .ok _ => s.accept v
    | .error _ => s.raise .cmderr := by
  rw [State.writeCmd, decodeWord]
  cases decode v <;> rfl

/-- Settles O8: no register is guarded or owned by the engine while IDLE, so each access does what its row of R56 says. -/
theorem idleAccessesReadAndWriteRegisters : Obligations.IdleAccessesReadAndWriteRegisters := by
  intro s rest hidle
  refine ⟨fun r h => ?read, fun r v h => ?write, fun off => reservedOffsetsReadZero s rest off⟩
  case read =>
    rw [step_of_readOp_value (.inl hidle) h]
    cases r with
    | status =>
      have hnb : s.busy = false := s.not_busy_iff.mpr hidle
      simp [State.regValue, State.statusWord_eq_ofNat, hnb]
    | row b n => cases b <;> rfl
    | cmd | crc1 | crc2 | len2Lo | len2Hi | vec | result => rfl
  case write =>
    rw [step_of_writeOp_unguarded (.inl hidle) h]
    cases r with
    | cmd =>
      rw [State.writeIdle, State.writeCmd_eq_match]
      cases decode v <;> rfl
    | status => rw [State.writeIdle, State.clearStatus_eq_ite]; rfl
    | row b n => cases b <;> rfl
    | crc1 | crc2 | len2Lo | len2Hi | vec | result => rfl

/-- The registers a BUSY block guards against writes: all but `STATUS` and `RESULT` (R57 (a)). -/
theorem Reg.guarded_iff (r : Reg) : r.guarded = true ↔ r ≠ .status ∧ r ≠ .result := by
  cases r <;> simp [Reg.guarded]

/-- The registers whose BUSY read is unspecified: `RESULT` and the rows (R57 (b)). -/
theorem Reg.engineOwned_iff (r : Reg) : r.engineOwned = true ↔ r = .result ∨ ∃ b n, r = .row b n := by
  cases r <;> simp [Reg.engineOwned]

/-- Settles O9: a guarded write and a read of what the engine owns as R57 (a) and (b) say, every other access as while IDLE. -/
theorem busyAccessesAreGuarded : Obligations.BusyAccessesAreGuarded := by
  intro s rest hb
  refine ⟨fun r v h1 h2 => step_of_writeOp_guarded hb (r.guarded_iff.mpr ⟨h1, h2⟩),
    fun r ho => step_of_readOp_draw hb (r.engineOwned_iff.mpr ho), fun h => ?readStatus,
    step_of_readOp_value (.inr rfl), step_of_readOp_value (.inr rfl), step_of_readOp_value (.inr rfl),
    step_of_readOp_value (.inr rfl), step_of_readOp_value (.inr rfl), step_of_readOp_value (.inr rfl),
    fun v h => ?writeStatus, fun v h => step_of_writeOp_unguarded (.inr rfl) h,
    fun off => reservedOffsetsReadZero s rest off⟩
  case readStatus =>
    have hbusy : s.busy = true := s.busy_iff.mpr hb
    rw [step_of_readOp_value (.inr rfl) h, State.regValue, State.statusWord_eq_ofNat, hbusy, Bool.toNat_true]
  case writeStatus =>
    rw [step_of_writeOp_unguarded (.inr rfl) h, State.writeIdle, State.clearStatus_eq_ite]
    rfl

/-! ### The one fault (R50) -/

/-- The address of a bus transaction (R9). -/
def Access.addr : Access → Nat
  | .read addr _ => addr
  | .write addr _ _ => addr

/-- A host access outside the window faults with its address (R50). -/
theorem hostAccess_of_outside {a : Access} (h : windowOffset a.addr = none) (rest : List HostOp) (s : State) :
    hostAccess a rest s = .fault (.outsideWindow a.addr) := by
  rw [hostAccess_eq]
  cases a with
  | read addr size | write addr size v =>
    have hr : reach addr size = .error (.outsideWindow addr) := reach_outside addr size h
    simp only [hr, Access.addr]

/-- A host access in the window is answered, be it by a bus error (R53, R54, R56). -/
theorem hostAccess_of_inside {a : Access} {off : Nat} (h : windowOffset a.addr = some off) (rest : List HostOp) (s : State) :
    ∃ t, hostAccess a rest s = .next t := by
  rw [hostAccess_eq]
  cases a with
  | read addr size | write addr size v =>
    have hw : windowOffset addr = some off := h
    cases hf : legalForm addr size <;> simp [reach, hw, hf]

/-- A host access faults exactly when its address is outside the window, and the fault names the address. -/
theorem hostAccess_eq_fault_iff (a : Access) (rest : List HostOp) (s : State) (f : Fault) :
    hostAccess a rest s = .fault f ↔ windowOffset a.addr = none ∧ f = .outsideWindow a.addr := by
  cases hw : windowOffset a.addr with
  | none => simp [hostAccess_of_outside hw, eq_comm]
  | some off =>
    obtain ⟨t, ht⟩ := hostAccess_of_inside hw rest s
    simp [ht]

/-- The only step that can fault is a host access: a perform step completes, a poll reads `STATUS`, a reset takes effect. -/
theorem step_eq_fault_iff (s : State) (f : Fault) :
    step s = .fault f ↔ ∃ a rest, HostNext s (.access a) rest ∧ hostAccess a rest s = .fault f := by
  refine ⟨fun h => ?_, fun ⟨a, rest, ⟨he, hi⟩, ha⟩ => by rw [step_of_access he hi, ha]⟩
  cases he : s.engineTurn with
  | true =>
    rw [step, if_pos he] at h
    split at h
    · next i _ =>
      obtain ⟨t, ht⟩ := exec_is_next i s
      simp [ht] at h
    · cases h
  | false =>
    cases hi : s.inputs with
    | nil => simp [step_of_nil he hi] at h
    | cons op rest =>
      cases op with
      | access a => exact ⟨a, rest, ⟨he, hi⟩, by rwa [step_of_access he hi] at h⟩
      | waitIdle => simp [step_of_waitIdle he hi, hostPoll_eq] at h
      | reset lost => simp [step_of_reset he hi] at h

/-- Settles O12: a step that faults is a host access outside the window, and such an access faults. -/
theorem faultsOnlyOutsideTheWindow : Obligations.FaultsOnlyOutsideTheWindow := by
  intro s f
  rw [step_eq_fault_iff]
  constructor
  · rintro ⟨a, rest, hn, ha⟩
    obtain ⟨hw, rfl⟩ := (hostAccess_eq_fault_iff a rest s f).mp ha
    refine ⟨a.addr, rfl, (windowOffset_eq_none_iff _).mp hw, rest, ?_⟩
    cases a with
    | read addr size => exact ⟨size, .inl hn⟩
    | write addr size v => exact ⟨size, .inr ⟨v, hn⟩⟩
  · rintro ⟨addr, rfl, hout, rest, size, hn | ⟨v, hn⟩⟩
    all_goals
      have hw : windowOffset addr = none := (windowOffset_eq_none_iff addr).mpr hout
      exact ⟨_, rest, hn, (hostAccess_eq_fault_iff _ rest s _).mpr ⟨hw, rfl⟩⟩

/-! ### Data registers (R56, R58) -/

/-- The states agree on what every register but `STATUS` holds when they agree on the operands, the banks and `RESULT`. -/
theorem State.regValue_congr {s t : State} (ho : SameOperands s t) (hr : SameResults s t) {r : Reg} (h : r ≠ .status) :
    t.regValue r = s.regValue r := by
  obtain ⟨h1, h2, h3, h4, h5⟩ := ho
  obtain ⟨h6, h7, h8⟩ := hr
  cases r with
  | status => exact absurd rfl h
  | row b n => cases b <;> simp [State.regValue, State.row, h6, h7]
  | cmd | crc1 | crc2 | len2Lo | len2Hi | vec | result => simp [State.regValue, *]

/-- A data register, that is a guarded register other than `CMD`, holds the word last written to it while IDLE (R56). -/
theorem State.regValue_writeIdle_same (s : State) {r : Reg} (v : Word) (hg : r.guarded = true) (hc : r ≠ .cmd) :
    (s.writeIdle r v).regValue r = v := by
  cases r with
  | cmd => exact absurd rfl hc
  | status | result => cases hg
  | row b n => exact s.row_setRow_same b n v
  | crc1 | crc2 | len2Lo | len2Hi | vec => rfl

/-- A write to `CMD` changes no operand, no bank and not `RESULT` (R86). -/
theorem State.sameData_writeCmd (s : State) (v : Word) : SameOperands s (s.writeCmd v) ∧ SameResults s (s.writeCmd v) := by
  rw [State.writeCmd]
  split <;> exact ⟨⟨rfl, rfl, rfl, rfl, rfl⟩, rfl, rfl, rfl⟩

/-- A write while IDLE leaves every other register but `STATUS` as it was (R56). -/
theorem State.regValue_writeIdle_of_ne (s : State) {r r' : Reg} (v : Word) (hne : r' ≠ r) (hs : r' ≠ .status) :
    (s.writeIdle r v).regValue r' = s.regValue r' := by
  cases r with
  | cmd =>
    obtain ⟨ho, hr⟩ := s.sameData_writeCmd v
    exact State.regValue_congr ho hr hs
  | status => exact State.regValue_congr (s := s) (t := s.clearStatus v) ⟨rfl, rfl, rfl, rfl, rfl⟩ ⟨rfl, rfl, rfl⟩ hs
  | result => rfl
  | row b n =>
    cases r' with
    | row c k => exact s.row_setRow_of_ne b c n k v (by simpa using hne)
    | status => exact absurd rfl hs
    | cmd | crc1 | crc2 | len2Lo | len2Hi | vec | result => simp [State.writeIdle, State.regValue, State.setRow]
  | crc1 | crc2 | len2Lo | len2Hi | vec =>
    cases r' with
    | row c k => cases c <;> rfl
    | cmd | status | crc1 | crc2 | len2Lo | len2Hi | vec | result => simp_all [State.writeIdle, State.regValue]

/-- Writing to a data register the word it holds changes nothing at all (R58). -/
theorem State.writeIdle_regValue (s : State) {r : Reg} (hg : r.guarded = true) (hc : r ≠ .cmd) :
    s.writeIdle r (s.regValue r) = s := by
  cases r with
  | cmd => exact absurd rfl hc
  | status | result => cases hg
  | row b n => cases b <;> simp [State.writeIdle, State.regValue, State.setRow, State.row, State.setBank]
  | crc1 | crc2 | len2Lo | len2Hi | vec => rfl

/-- A write to a register takes no operation off the host's list. -/
theorem State.writeReg_inputs (s : State) (r : Reg) (v : Word) : (s.writeReg (some r) v).inputs = s.inputs := by
  rcases writeReg_cases r v s with ⟨-, -, h⟩ | ⟨-, h⟩ <;> rw [h]
  · exact s.raise_ovr_inputs
  · cases r with
    | cmd => rw [State.writeIdle, State.writeCmd]; split <;> rfl
    | row b n => exact s.setBank_inputs ..
    | status | crc1 | crc2 | len2Lo | len2Hi | vec | result => rfl

/-- A write to a data register while IDLE starts no command. -/
theorem State.writeIdle_phase (s : State) {r : Reg} (v : Word) (hc : r ≠ .cmd) : (s.writeIdle r v).phase = s.phase := by
  cases r with
  | cmd => exact absurd rfl hc
  | row b n => exact s.setBank_phase ..
  | status | crc1 | crc2 | len2Lo | len2Hi | vec | result => rfl

/-! ### Reads and repeated writes (R58) -/

/-- A host read that is answered changes nothing of the block, and while IDLE draws no free value (R58). -/
theorem hostAccess_read_frame {addr size : Nat} {rest : List HostOp} {s t : State}
    (h : hostAccess (.read addr size) rest s = .next t) : SameBlock s t ∧ (s.phase = .idle → t.draws = s.draws) := by
  rcases hostAccess_cases h with rfl | ⟨_, _, off, -, -, rfl⟩ | ⟨_, _, _, _, ha, -⟩
  · exact ⟨sameBlock_respond_tick s rest _, fun _ => rfl⟩
  · refine ⟨sameBlock_readReg s rest _ _, fun hi => ?_⟩
    rcases readReg_cases (regAt off) (s.tick rest) with hr | ⟨hb, -⟩
    · rw [State.respond_draws, hr, State.tick_draws]
    · simp [hi] at hb
  · cases ha

/-- The block already is as a write of `v` to the data register `r` leaves it: `r` holds `v`, or, while BUSY, OVR is set. -/
def State.Settled (s : State) (r : Reg) (v : Word) : Prop :=
  (s.phase = .busy ∧ s.ovr = true) ∨ (s.phase = .idle ∧ s.regValue r = v)

section
variable {r : Reg} (hg : r.guarded = true) (hc : r ≠ .cmd)
include hg hc

/-- A write to a data register settles it. -/
theorem State.settled_writeReg (s : State) (v : Word) : (s.writeReg (some r) v).Settled r v := by
  rcases writeReg_cases r v s with ⟨hb, -, h⟩ | ⟨hu, h⟩ <;> rw [h]
  · exact .inl ⟨hb, s.raise_ovr_ovr⟩
  · have hi : s.phase = .idle := hu.resolve_right (by simp [hg])
    exact .inr ⟨(s.writeIdle_phase v hc).trans hi, s.regValue_writeIdle_same v hg hc⟩

/-- A write to a data register that is settled changes nothing at all (R58). -/
theorem State.writeReg_of_settled {s : State} {v : Word} (h : s.Settled r v) : s.writeReg (some r) v = s := by
  rcases h with ⟨hb, ho⟩ | ⟨hi, rfl⟩
  · rw [State.writeReg_of_guarded hb hg, State.raise, ← ho]
  · rw [State.writeReg_of_unguarded (.inl hi), s.writeIdle_regValue hg hc]

/-- The step of a host write to a data register settles it. -/
theorem step_of_writeOp_settles {s : State} {v : Word} {rest : List HostOp} (hn : HostNext s (writeOp r v) rest) :
    ∃ t, step s = .next t ∧ t.inputs = rest ∧ t.Settled r v := by
  refine ⟨_, step_of_writeOp hn, State.writeReg_inputs .., ?_⟩
  simpa [State.Settled] using (s.tick rest).settled_writeReg hg hc v

/-- The step of a host write to a data register that is settled is answered and does no more. -/
theorem step_of_writeOp_settled {s : State} {v : Word} {rest : List HostOp} (hset : s.Settled r v)
    (hn : HostNext s (writeOp r v) rest) : step s = .next (s.afterAccess rest .ack) := by
  have htick : (s.tick rest).Settled r v := by simpa [State.Settled] using hset
  rw [step_of_writeOp hn, State.writeReg_of_settled hg hc htick]
  rfl

end

/-- Settles O14: a read leaves the block alone, and the first of two equal writes settles the register it writes. -/
theorem readsAndRepeatedWritesAreIdempotent : Obligations.ReadsAndRepeatedWritesAreIdempotent := by
  refine ⟨fun s t addr size rest ⟨he, hi⟩ h => ?read, fun s r v rest hc hs hr hn => ?write⟩
  case read => exact hostAccess_read_frame (step_of_access he hi ▸ h)
  case write =>
    have hg : r.guarded = true := r.guarded_iff.mpr ⟨hs, hr⟩
    obtain ⟨t, ht, hin, hset⟩ := step_of_writeOp_settles hg hc hn
    exact ⟨t, ht, fun he => ⟨_, step_of_writeOp_settled hg hc hset ⟨he, hin⟩, sameBlock_refl t⟩⟩

/-! ### What an IDLE step keeps (R60, R161) -/

/-- A step from an IDLE state that is no reset leaves every register but `STATUS` as it was, or is a host write of that very
register, which takes its effect of R56. -/
theorem regValue_of_idle_step {s t : State} (hidle : s.phase = .idle) (h : step s = .next t)
    (hnr : ∀ lost rest, s.inputs ≠ .reset lost :: rest) {r : Reg} (hr : r ≠ .status) :
    t.regValue r = s.regValue r ∨
    ∃ v rest, s.inputs = writeOp r v :: rest ∧ t.regValue r = ((s.tick rest).writeIdle r v).regValue r := by
  rcases step_effect h with ⟨he, -⟩ | ⟨ho, hres, -⟩ | ⟨r', v, rest, hn, rfl⟩ | ⟨lost, rest, hn, -⟩
  · simp [State.engineTurn_of_idle s hidle] at he
  · exact .inl (State.regValue_congr ho hres hr)
  · rw [State.regValue_respond, State.writeReg_of_unguarded (s := s.tick rest) (.inl hidle)]
    rcases eq_or_ne r r' with rfl | hne
    · exact .inr ⟨v, rest, hn.2, rfl⟩
    · exact .inl (by rw [State.regValue_writeIdle_of_ne _ v hne hr, State.regValue_tick])
  · exact absurd hn.2 (hnr lost rest)

/-- Settles O42: a write of the read-only `RESULT` leaves it, and a write of a data register puts its word there. -/
theorem idleStateKeepsResults : Obligations.IdleStateKeepsResults := by
  intro s t hidle h hnr
  have hdata {r : Reg} (hg : r.guarded = true) (hc : r ≠ .cmd) : t.regValue r = s.regValue r ∨
      ∃ v rest, s.inputs = writeOp r v :: rest ∧ t.regValue r = v := by
    refine (regValue_of_idle_step hidle h hnr (r.guarded_iff.mp hg).1).imp_right fun ⟨v, rest, hi, hv⟩ => ?_
    exact ⟨v, rest, hi, hv.trans (State.regValue_writeIdle_same _ v hg hc)⟩
  refine ⟨?result, fun r hr => ?operand, fun b n => hdata (r := .row b n) rfl (by simp)⟩
  case result =>
    rcases regValue_of_idle_step hidle h hnr (r := .result) (by decide) with hv | ⟨v, rest, -, hv⟩ <;> exact hv
  case operand =>
    have hd : r.guarded = true ∧ r ≠ .cmd := by
      revert r
      decide
    exact hdata hd.1 hd.2

end Sys2Proof.Machine
end

section
/-!
PROOFS. The encoding of commands (spec 30_encoding.md): a word and its fields determine each other (O4), decode and encode
invert each other (O3), so the commands are nine words (O2, O1), and a word is legal exactly when its fields are well formed.
From that, what a write to `CMD` does, by the cases of R85 (O5) and by R86's pseudocode (O6).
-/

namespace Sys2Proof

/-! ### A word and its fields (R81, R55) -/

/-- The fields of a word put together from fields are those fields (R81). -/
theorem Cmdw.ofWord_toWord (c : Cmdw) : Cmdw.ofWord c.toWord = c := by
  obtain ⟨op, src, dst, rsv⟩ := c
  rw [Cmdw.ofWord, Cmdw.toWord, Cmdw.mk.injEq]
  refine ⟨BitVec.extractLsb'_append_eq_right, ?_, ?_, ?_⟩
  · exact (BitVec.extractLsb'_append_eq_of_le (by decide)).trans BitVec.extractLsb'_append_eq_right
  · exact (BitVec.extractLsb'_append_eq_of_le (by decide)).trans
      ((BitVec.extractLsb'_append_eq_of_le (by decide)).trans BitVec.extractLsb'_append_eq_right)
  · exact (BitVec.extractLsb'_append_eq_of_le (by decide)).trans
      ((BitVec.extractLsb'_append_eq_of_le (by decide)).trans BitVec.extractLsb'_append_eq_left)

/-- A word is its four fields side by side (R81). -/
theorem Cmdw.toWord_ofWord (w : Word) : (Cmdw.ofWord w).toWord = w := by
  simp only [Cmdw.toWord, Cmdw.ofWord, BitVec.extractLsb'_append_extractLsb'_eq_extractLsb', BitVec.extractLsb'_eq_self]

/-- A word is its four byte lanes side by side (R55). -/
theorem Word.ofLanes_lanes (w : Word) :
    Word.ofLanes (w.extractLsb' 0 8) (w.extractLsb' 8 8) (w.extractLsb' 16 8) (w.extractLsb' 24 8) = w := by
  simp only [Word.ofLanes, BitVec.extractLsb'_append_extractLsb'_eq_extractLsb', BitVec.extractLsb'_eq_self]

section
variable (w : Word)

theorem Cmdw.ofWord_op_toNat : (Cmdw.ofWord w).op.toNat = w.toNat % 16 := by
  rw [Cmdw.ofWord, BitVec.extractLsb'_toNat, Nat.shiftRight_zero]

theorem Cmdw.ofWord_src_toNat : (Cmdw.ofWord w).src.toNat = w.toNat / 16 % 2 := by
  rw [Cmdw.ofWord, BitVec.extractLsb'_toNat, Nat.shiftRight_eq_div_pow]

theorem Cmdw.ofWord_dst_toNat : (Cmdw.ofWord w).dst.toNat = w.toNat / 32 % 2 := by
  rw [Cmdw.ofWord, BitVec.extractLsb'_toNat, Nat.shiftRight_eq_div_pow]

theorem Cmdw.ofWord_rsv_toNat : (Cmdw.ofWord w).rsv.toNat = w.toNat / 64 := by
  have hlt := w.isLt
  rw [Cmdw.ofWord, BitVec.extractLsb'_toNat, Nat.shiftRight_eq_div_pow]
  omega

end

/-- Settles O4: each field by its bit position, and the two round trips. -/
theorem commandFieldsTileTheWord : Obligations.CommandFieldsTileTheWord :=
  ⟨fun w => ⟨Cmdw.ofWord_op_toNat w, Cmdw.ofWord_src_toNat w, Cmdw.ofWord_dst_toNat w, Cmdw.ofWord_rsv_toNat w⟩,
    Cmdw.toWord_ofWord, Cmdw.ofWord_toWord⟩

/-! ### Decode and encode (R83, R88) -/

/-- The bit of the bank a bit names is that bit (R82). -/
@[simp] theorem Bank.bit_ofBit (b : BitVec 1) : (Bank.ofBit b).bit = b := by
  revert b
  decide

/-- The fields the encoder gives a command stand for that command (R83). -/
theorem Instr.decode_fields (i : Instr) : i.fields.decode = .ok i := by
  cases i with
  | mvmul s => cases s <;> rfl
  | msqr d s => cases d <;> cases s <;> rfl
  | minit d => cases d <;> rfl
  | combine => rfl

/-- The fields that stand for a command are the ones the encoder gives it: the decoder accepts no second form (R83, R84). -/
theorem Cmdw.decode_eq_ok_iff {c : Cmdw} {i : Instr} : c.decode = .ok i ↔ i.fields = c := by
  refine ⟨fun h => ?_, fun h => h ▸ i.decode_fields⟩
  obtain ⟨op, src, dst, rsv⟩ := c
  simp only [Cmdw.decode] at h
  split_ifs at h <;> cases h <;> simp_all [Instr.fields]

/-- A word is a command exactly when it is that command's encoding (R83, R84). -/
theorem decode_eq_ok_iff {w : Word} {i : Instr} : decode w = .ok i ↔ encode i = w := by
  rw [decode, Cmdw.decode_eq_ok_iff, encode]
  exact ⟨fun h => by rw [h, Cmdw.toWord_ofWord], fun h => by rw [← h, Cmdw.ofWord_toWord]⟩

/-- Decoding undoes encoding. -/
theorem decode_encode (i : Instr) : decode (encode i) = .ok i := decode_eq_ok_iff.mpr rfl

/-- The decoder on byte lanes takes four bytes and leaves the rest (R80, R55). -/
theorem decodeBytes_lanes_append (w : Word) (rest : List Byte) :
    decodeBytes (w.lanes ++ rest) = (decode w).map (·, rest) := by
  simp only [Word.lanes, List.cons_append, List.nil_append, decodeBytes, Word.ofLanes_lanes]

/-- The opcode table's numbering of a word is the word's number. -/
theorem decodeTableWord_toNat (w : Word) : decodeTableWord 32 w.toNat = decodeWord w := by
  rw [decodeTableWord, Machine.tableWord_toNat, Option.bind_some]

/-- Settles O3: a word is a command exactly when it is the command's encoding; lanes and table numbers stand for words. -/
theorem decodeEncodeAgreeBothWays : Obligations.DecodeEncodeAgreeBothWays := by
  refine ⟨decode_encode, fun w i => decode_eq_ok_iff.mp, fun i rest => ?lanes, fun w i hw => ?table⟩
  case lanes =>
    rw [decodeBytes_lanes_append, decode_encode]
    rfl
  case table =>
    obtain ⟨v, rfl⟩ : ∃ v : Word, v.toNat = w := ⟨BitVec.ofNatLT w hw, rfl⟩
    rw [decodeTableWord_toNat, Machine.decodeWord_eq_some_iff, decode_eq_ok_iff, BitVec.toNat_inj]

/-- Settles O2: the nine rows are the nine commands with their encodings, and only an encoding decodes. -/
theorem legalWordsAreExactlyNine : Obligations.LegalWordsAreExactlyNine := by
  intro w i
  rw [decode_eq_ok_iff, eq_comm]
  cases i with
  | mvmul s => cases s <;> simp [encode, Instr.fields, Cmdw.toWord, Bank.bit]
  | msqr d s => cases d <;> cases s <;> simp [encode, Instr.fields, Cmdw.toWord, Bank.bit]
  | minit d => cases d <;> simp [encode, Instr.fields, Cmdw.toWord, Bank.bit]
  | combine => simp [encode, Instr.fields, Cmdw.toWord]

/-- Settles O1: the words are concrete, and so is each command's encoding once its banks are named. -/
theorem commandWordsReadAsWritten : Obligations.CommandWordsReadAsWritten := by
  refine ⟨by decide, by decide, by decide, by decide, by decide, by decide, by decide, by decide, by decide,
    fun s => ?mvmul, fun d s => ?msqr, fun d => ?minit, rfl⟩
  case mvmul => cases s <;> rfl
  case msqr => cases d <;> cases s <;> rfl
  case minit => cases d <;> rfl

/-! ### Legal words (R85) -/

/-- Every command's fields are a legal command word (R85). -/
theorem Instr.fields_wellFormed (i : Instr) : i.fields.wellFormed = true := by
  cases i with
  | mvmul s => exact Laws.FieldsLegal.mvmul s
  | msqr d s => exact Laws.FieldsLegal.msqr d s
  | minit d => exact Laws.FieldsLegal.minit d
  | combine => exact Laws.FieldsLegal.combine

/-- The legal fields by operation code (R83, R85). -/
theorem Cmdw.wellFormed_iff (c : Cmdw) : c.wellFormed = true ↔ c.rsv = 0#26 ∧
    ((c.op = 1#4 ∧ c.dst = 0#1) ∨ c.op = 2#4 ∨ (c.op = 3#4 ∧ c.src = 0#1) ∨ (c.op = 4#4 ∧ c.src = 0#1 ∧ c.dst = 0#1)) := by
  obtain ⟨op, src, dst, rsv⟩ := c
  simp only [Cmdw.wellFormed, Cmdw.opDefined, Cmdw.rsvZero, Cmdw.unusedZero, Cmdw.usesSrc, Cmdw.usesDst]
  grind

/-- The decoder accepts exactly the well-formed fields (R85, R86). -/
theorem Cmdw.exists_decode_iff (c : Cmdw) : (∃ i, c.decode = .ok i) ↔ c.wellFormed = true := by
  refine ⟨fun ⟨i, h⟩ => Cmdw.decode_eq_ok_iff.mp h ▸ i.fields_wellFormed, fun h => ?_⟩
  obtain ⟨op, src, dst, rsv⟩ := c
  obtain ⟨hrsv, ⟨hop, hdst⟩ | hop | ⟨hop, hsrc⟩ | ⟨hop, hsrc, hdst⟩⟩ := (Cmdw.wellFormed_iff _).mp h
  · exact ⟨.mvmul (.ofBit src), Cmdw.decode_eq_ok_iff.mpr (by simp_all [Instr.fields])⟩
  · exact ⟨.msqr (.ofBit dst) (.ofBit src), Cmdw.decode_eq_ok_iff.mpr (by simp_all [Instr.fields])⟩
  · exact ⟨.minit (.ofBit dst), Cmdw.decode_eq_ok_iff.mpr (by simp_all [Instr.fields])⟩
  · exact ⟨.combine, Cmdw.decode_eq_ok_iff.mpr (by simp_all [Instr.fields])⟩

/-- A one-bit field is zero when its bit is. -/
theorem extractLsb'_one_eq_zero_iff (w : Word) (k : Nat) : w.extractLsb' k 1 = 0#1 ↔ w.getLsbD k = false := by
  rw [BitVec.eq_of_getLsbD_eq_iff]
  simp

/-- The legal words by their bits (R81, R83, R85). -/
theorem exists_decode_iff (w : Word) : (∃ i, decode w = .ok i) ↔ w.extractLsb' 6 26 = 0#26 ∧
    ((w.extractLsb' 0 4 = 1#4 ∧ w.getLsbD 5 = false) ∨ w.extractLsb' 0 4 = 2#4 ∨
      (w.extractLsb' 0 4 = 3#4 ∧ w.getLsbD 4 = false) ∨
      (w.extractLsb' 0 4 = 4#4 ∧ w.getLsbD 4 = false ∧ w.getLsbD 5 = false)) := by
  rw [← extractLsb'_one_eq_zero_iff w 4, ← extractLsb'_one_eq_zero_iff w 5]
  exact (Cmdw.exists_decode_iff (Cmdw.ofWord w)).trans (Cmdw.wellFormed_iff _)

/-- The illegal words are the cases (a), (b), (c) of R85, on the word as a number. -/
theorem forall_decode_ne_iff (w : Word) : (∀ i, decode w ≠ .ok i) ↔
    (w.toNat % 16 = 0 ∨ 5 ≤ w.toNat % 16) ∨ w.toNat / 64 ≠ 0 ∨
    (w.toNat % 16 = 1 ∧ w.getLsbD 5 = true) ∨ (w.toNat % 16 = 3 ∧ w.getLsbD 4 = true) ∨
    (w.toNat % 16 = 4 ∧ (w.getLsbD 4 = true ∨ w.getLsbD 5 = true)) := by
  have hop (k : BitVec 4) : w.extractLsb' 0 4 = k ↔ w.toNat % 16 = k.toNat := by
    rw [← Cmdw.ofWord_op_toNat w, BitVec.toNat_inj]
    rfl
  have hrsv : w.extractLsb' 6 26 = 0#26 ↔ w.toNat / 64 = 0 := by
    rw [← Cmdw.ofWord_rsv_toNat w, ← BitVec.toNat_inj]
    rfl
  simp only [ne_eq, ← not_exists, exists_decode_iff, hop, hrsv, BitVec.reduceToNat]
  cases w.getLsbD 4 <;> cases w.getLsbD 5 <;> simp <;> omega

end Sys2Proof

namespace Sys2Proof.Machine

/-! ### A write to `CMD` (R86) -/

section
variable {s : State} {v : Word} {rest : List HostOp}

/-- A legal word written to `CMD` while IDLE is accepted (R86). -/
theorem State.writeCmd_of_legal (h : ∃ i, decode v = .ok i) : s.writeCmd v = s.accept v := by
  obtain ⟨i, hi⟩ := h
  rw [State.writeCmd_eq_match, hi]

/-- An illegal word written to `CMD` while IDLE only sets CMDERR (R86, R152). -/
theorem State.writeCmd_of_illegal (h : ∀ i, decode v ≠ .ok i) : s.writeCmd v = s.raise .cmderr := by
  rw [State.writeCmd_eq_match]
  cases hd : decode v with
  | ok i => exact absurd hd (h i)
  | error e => rfl

/-- The step of a host write of a legal word to `CMD` while IDLE: the word is latched, DONE cleared, `LAT` drawn (R86, R187). -/
theorem step_of_legal_cmd (hidle : s.phase = .idle) (hv : ∃ i, decode v = .ok i) (h : HostNext s (writeOp .cmd v) rest) :
    step s = .next { s.afterAccess rest .ack with
      pending := v, phase := .busy, done := false, wait := Config.latency s.draws, draws := s.draws + 1 } := by
  rw [step_of_writeOp_unguarded (.inl hidle) h, State.writeIdle, State.writeCmd_of_legal hv]
  rfl

/-- The step of a host write of an illegal word to `CMD` while IDLE: CMDERR and nothing else (R86, R152). -/
theorem step_of_illegal_cmd (hidle : s.phase = .idle) (hv : ∀ i, decode v ≠ .ok i)
    (h : HostNext s (writeOp .cmd v) rest) :
    step s = .next { s.afterAccess rest .ack with cmderr := true } := by
  rw [step_of_writeOp_unguarded (.inl hidle) h, State.writeIdle, State.writeCmd_of_illegal hv]
  rfl

end

/-- Settles O5: the three cases are the ones the decoder rejects, and a rejected word meets CMDERR. -/
theorem illegalWordsAreRejected : Obligations.IllegalWordsAreRejected :=
  fun w => ⟨forall_decode_ne_iff w, fun _ _ hv hidle h => step_of_illegal_cmd hidle hv h⟩

/-- Settles O6: R86's legality test is the decoder's, and the engine's turn performs what `PENDING` decodes to. -/
theorem cmdWriteDecodesAndAccepts : Obligations.CmdWriteDecodesAndAccepts := by
  refine ⟨fun s rest v h => ?write, fun s he i hd => ?perform⟩
  case write =>
    refine ⟨fun hb => step_of_writeOp_guarded hb rfl h, fun hidle hn => ?_, fun hidle hl => ?_⟩
    · exact step_of_illegal_cmd hidle (not_exists.mp (mt (exists_decode_iff v).mp hn)) h
    · exact step_of_legal_cmd hidle ((exists_decode_iff v).mpr hl) h
  case perform =>
    rw [step_eq_exec_of_decode he hd]
    cases i <;> rfl

end Sys2Proof.Machine
end

section
/-!
PROOFS. CRC32_COMBINE as bus transactions (30_encoding.md section 4, R88, R89; O45). First what the matrices of COMBINE do: a
matrix that shifts `k` zero bits squares to one that shifts `2k`, so R131's loop shifts `8·LEN2` zero bits into `CRC1` (R135).
Then the run: the operands are written, the command is accepted, `WAIT_IDLE` polls until the perform step is over, and the read
of `RESULT` answers the combination.
-/

namespace Sys2Proof.Machine

/-! ### `apply` is linear, and a square acts twice (R100 to R102) -/

/-- One row's turn in the fold of `apply`: the row is added when its bit of the vector is 1 (R100). -/
def gf2Step (m : Mat) (v acc : Word) (i : Fin 32) : Word := if v.getLsbD i.val then acc ^^^ m[i] else acc

/-- `apply` is the fold of its rows' turns (R100). -/
theorem gf2Apply_eq_foldl (m : Mat) (v : Word) : gf2Apply m v = (List.finRange 32).foldl (gf2Step m v) 0#32 := rfl

/-- A row's turn flips the accumulator's bits where the row has a 1, if the row is selected. -/
theorem getLsbD_gf2Step (m : Mat) (v acc : Word) (i : Fin 32) (j : Nat) :
    (gf2Step m v acc i).getLsbD j = (acc.getLsbD j ^^ (v.getLsbD i.val && (m[i]).getLsbD j)) := by
  rw [gf2Step]
  split
  · next h => rw [BitVec.getLsbD_xor, h, Bool.true_and]
  · next h => rw [Bool.eq_false_of_not_eq_true h, Bool.false_and, Bool.xor_false]

/-- The fold is additive in the vector and the accumulator together, over any rows. -/
theorem foldl_gf2Step_xor (m : Mat) (u v a b : Word) (l : List (Fin 32)) :
    l.foldl (gf2Step m (u ^^^ v)) (a ^^^ b) = l.foldl (gf2Step m u) a ^^^ l.foldl (gf2Step m v) b := by
  induction l generalizing a b with
  | nil => rfl
  | cons i l ih =>
    have hstep : gf2Step m (u ^^^ v) (a ^^^ b) i = gf2Step m u a i ^^^ gf2Step m v b i := by
      refine BitVec.eq_of_getLsbD_eq fun j _ => ?_
      simp only [getLsbD_gf2Step, BitVec.getLsbD_xor, Bool.and_xor_distrib_right, Bool.xor_assoc, Bool.xor_left_comm]
    rw [List.foldl_cons, List.foldl_cons, List.foldl_cons, hstep, ih]

/-- `apply` is linear in the vector (R101). -/
theorem gf2Apply_xor (m : Mat) (u v : Word) : gf2Apply m (u ^^^ v) = gf2Apply m u ^^^ gf2Apply m v :=
  foldl_gf2Step_xor m u v 0#32 0#32 (List.finRange 32)

/-- A function that respects XOR sends the zero vector to itself. -/
theorem map_zero_of_map_xor {f : Word → Word} (hf : ∀ u v, f (u ^^^ v) = f u ^^^ f v) : f 0#32 = 0#32 := by
  simpa using hf 0#32 0#32

/-- A linear function moves inside `apply`: it may be applied to the rows instead. -/
theorem map_gf2Apply {f : Word → Word} (hf : ∀ u v, f (u ^^^ v) = f u ^^^ f v) (m : Mat) (v : Word) :
    f (gf2Apply m v) = gf2Apply (m.map f) v := by
  have hstep (acc : Word) (i : Fin 32) : gf2Step (m.map f) v (f acc) i = f (gf2Step m v acc i) := by
    simp only [gf2Step, apply_ite f, hf]
    simp
  rw [gf2Apply_eq_foldl, gf2Apply_eq_foldl, ← List.foldl_hom f hstep, map_zero_of_map_xor hf]

/-- The square of a matrix acts as the matrix applied twice (R102). -/
theorem gf2Apply_gf2Square (m : Mat) (v : Word) : gf2Apply (gf2Square m) v = gf2Apply m (gf2Apply m v) := by
  have hsq : gf2Square m = m.map (gf2Apply m) := by
    ext n hn : 1
    simp [gf2Square]
  rw [hsq, map_gf2Apply (gf2Apply_xor m)]

/-- Row `i` of the identity is the `i`-th basis vector (R10). -/
theorem getLsbD_gf2Identity (i : Fin 32) (j : Nat) : (gf2Identity[i]).getLsbD j = decide (i.val = j) := by
  have hrow : gf2Identity[i] = BitVec.twoPow 32 i.val := by simp [gf2Identity, BitVec.twoPow]
  simp [hrow, BitVec.getLsbD_twoPow]

/-- Over distinct rows of the identity the fold flips exactly the vector's bits at those rows. -/
theorem getLsbD_foldl_gf2Identity (v acc : Word) (j : Nat) {l : List (Fin 32)} (hl : l.Nodup) :
    (l.foldl (gf2Step gf2Identity v) acc).getLsbD j =
      (acc.getLsbD j ^^ (v.getLsbD j && decide (∃ i ∈ l, i.val = j))) := by
  induction l generalizing acc with
  | nil => simp
  | cons i l ih =>
    obtain ⟨hi, hl⟩ := List.nodup_cons.mp hl
    rw [List.foldl_cons, ih _ hl, getLsbD_gf2Step, getLsbD_gf2Identity]
    by_cases hij : i.val = j
    · subst hij
      have hnot : ¬ ∃ k ∈ l, k.val = i.val := fun ⟨k, hk, hki⟩ => hi (Fin.ext hki ▸ hk)
      simp [hnot]
    · simp [hij]

/-- The identity matrix leaves every vector as it is (R101). -/
theorem gf2Apply_gf2Identity (v : Word) : gf2Apply gf2Identity v = v := by
  refine BitVec.eq_of_getLsbD_eq fun j hj => ?_
  have hrow : ∃ i ∈ List.finRange 32, i.val = j := ⟨⟨j, hj⟩, List.mem_finRange _, rfl⟩
  rw [gf2Apply_eq_foldl, getLsbD_foldl_gf2Identity v 0#32 j (List.nodup_finRange 32), decide_eq_true hrow, Bool.and_true,
    BitVec.getLsbD_zero, Bool.false_xor]

/-! ### Matrices that shift zero bits in (R108, R10) -/

/-- The matrix acts as `k` zero bits shifted into the CRC register (R10). -/
def ShiftsBy (m : Mat) (k : Nat) : Prop := ∀ v, gf2Apply m v = shiftBits k v

/-- Shifting `a` bits and then `b` bits is shifting `b + a` bits. -/
theorem shiftBits_shiftBits (a b : Nat) (v : Word) : shiftBits b (shiftBits a v) = shiftBits (b + a) v :=
  (Function.iterate_add_apply (gf2Apply odd0) b a v).symm

/-- Shifting is linear. -/
theorem shiftBits_xor (k : Nat) (u v : Word) : shiftBits k (u ^^^ v) = shiftBits k u ^^^ shiftBits k v := by
  induction k generalizing u v with
  | zero => rfl
  | succ k ih =>
    simp only [shiftBits, Function.iterate_succ_apply] at ih ⊢
    rw [gf2Apply_xor, ih]

/-- `ODD0` shifts one bit (R104). -/
theorem shiftsBy_odd0 : ShiftsBy odd0 1 := fun v => by rw [shiftBits, Function.iterate_one]

/-- Squaring doubles the shift (R108). -/
theorem ShiftsBy.square {m : Mat} {k : Nat} (h : ShiftsBy m k) : ShiftsBy (gf2Square m) (2 * k) := fun v => by
  rw [gf2Apply_gf2Square, h, h, shiftBits_shiftBits, two_mul]

/-- `P^k` shifts `k` bits (R108). -/
theorem shiftsBy_oddPower (k : Nat) : ShiftsBy (oddPower k) k := fun v => by
  have hrows : oddPower k = gf2Identity.map (shiftBits k) := by
    ext n hn : 1
    simp [oddPower, gf2Identity]
  rw [hrows, ← map_gf2Apply (shiftBits_xor k), gf2Apply_gf2Identity]

/-! ### COMBINE's loop (R131, R135) -/

/-- A bit of the length counter decides whether `k` bits are shifted in. -/
theorem ite_shiftBits_eq (n : BitVec 64) (k : Nat) (c : Word) :
    (if n.getLsbD 0 then shiftBits k c else c) = shiftBits (k * (n.toNat % 2)) c := by
  rw [BitVec.getLsbD, Nat.testBit_zero]
  rcases Nat.mod_two_eq_zero_or_one n.toNat with h | h <;> simp [h, shiftBits]

/-- The shifts of two passes and of the rest of the loop are `2k` bits for each unit of the counter. -/
theorem shift_of_two_passes (k n : Nat) :
    2 * (2 * (2 * k)) * (n / 2 / 2) + (2 * (2 * k) * (n / 2 % 2) + 2 * k * (n % 2)) = 2 * k * n := by
  have hn : n = 4 * (n / 2 / 2) + 2 * (n / 2 % 2) + n % 2 := by omega
  conv_rhs => rw [hn]
  ring

section
variable {r : CombineRegs} {k : Nat}

/-- A pass that writes `MAT[0]`, from an ODD that shifts `k` bits. -/
theorem combinePassEven_shifts (h : ShiftsBy r.odd k) : ShiftsBy (combinePassEven r).even (2 * k) ∧
    (combinePassEven r).c = shiftBits (2 * k * (r.n.toNat % 2)) r.c := by
  rw [combinePassEven_even, combinePassEven_c, h.square, ite_shiftBits_eq]
  exact ⟨h.square, rfl⟩

/-- A pass that writes `MAT[1]`, from an EVEN that shifts `k` bits. -/
theorem combinePassOdd_shifts (h : ShiftsBy r.even k) : ShiftsBy (combinePassOdd r).odd (2 * k) ∧
    (combinePassOdd r).c = shiftBits (2 * k * (r.n.toNat % 2)) r.c := by
  rw [combinePassOdd_odd, combinePassOdd_c, h.square, ite_shiftBits_eq]
  exact ⟨h.square, rfl⟩

/-- The loop of R131, entered with an ODD that shifts `k` bits and fuel for all bits of the counter, shifts `2k` bits for each
unit of the counter. -/
theorem combineLoop_c (fuel : Nat) (h : ShiftsBy r.odd k) (hn : r.n.toNat < 4 ^ fuel) :
    (combineLoop fuel r).c = shiftBits (2 * k * r.n.toNat) r.c := by
  induction fuel generalizing r k with
  | zero =>
    have hz : r.n.toNat = 0 := by omega
    rw [hz]
    rfl
  | succ fuel ih =>
    obtain ⟨heven, hc1⟩ := combinePassEven_shifts h
    obtain ⟨hodd, hc2⟩ := combinePassOdd_shifts heven
    have hn1 : (combinePassEven r).n.toNat = r.n.toNat / 2 := by simp [Nat.shiftRight_eq_div_pow]
    have hn2 : (combinePassOdd (combinePassEven r)).n.toNat = r.n.toNat / 2 / 2 := by
      rw [combinePassOdd_n, BitVec.toNat_ushiftRight, hn1, Nat.shiftRight_eq_div_pow, pow_one]
    rw [hn1, hc1, shiftBits_shiftBits] at hc2
    have hsum := shift_of_two_passes k r.n.toNat
    rw [combineLoop_succ]
    split_ifs with h1 h2
    · have hz : r.n.toNat % 2 = r.n.toNat := by
        have : r.n.toNat / 2 = 0 := by rw [← hn1, h1, BitVec.toNat_zero]
        omega
      rw [hc1, hz]
    · have hz : r.n.toNat / 2 / 2 = 0 := by rw [← hn2, h2, BitVec.toNat_zero]
      rw [hz, mul_zero, zero_add] at hsum
      rw [hc2, hsum]
    · rw [ih hodd (by rw [hn2]; omega), hc2, hn2, shiftBits_shiftBits, hsum]

end

/-- The running value COMBINE's main path leaves: `8·n` zero bits shifted into `c` (R135). -/
theorem combineResult_c (c : Word) (n : BitVec 64) : (combineResult c n).c = shiftBits (8 * n.toNat) c := by
  have hsetup : ShiftsBy (combineSetup c n).odd 4 := shiftsBy_odd0.square.square
  exact combineLoop_c combineFuel hsetup n.isLt

/-- COMBINE's result in closed form (R132, R135). -/
theorem result_of_exec_combine {s t : State} (h : exec .combine s = .next t) :
    t.result = if s.len2 = 0#64 then s.crc1 else gf2Apply (oddPower (8 * s.len2.toNat)) s.crc1 ^^^ s.crc2 := by
  split
  · next hz => exact result_of_exec_combine_of_zero (s.len2_eq_zero_iff.mp hz) h
  · next hz =>
    obtain ⟨hr, -, -⟩ := exec_combine_writes_combineResult (mt s.len2_eq_zero_iff.mpr hz) h
    rw [hr, combineResult_c, shiftsBy_oddPower]

/-! ### Runs (R60) -/

/-- A run of `k + 1` steps is a step and a run of `k` steps. -/
theorem run_succ_eq_next_iff {M : Host.Core} {k : Nat} {s t : M.State} :
    M.run (k + 1) s = .next t ↔ ∃ u, M.step s = .next u ∧ M.run k u = .next t := by
  rw [Host.Core.run]
  cases M.step s <;> simp

/-- Some number of steps leads from the one state to the other. -/
def Reaches (s t : State) : Prop := ∃ k, RunsTo k s t

/-- A state reaches itself, in no steps. -/
theorem Reaches.refl (s : State) : Reaches s s := ⟨0, rfl⟩

/-- A step, and what is reached from where it leads. -/
theorem Reaches.head {s u t : State} (hs : step s = .next u) (h : Reaches u t) : Reaches s t := by
  obtain ⟨k, hk⟩ := h
  exact ⟨k + 1, run_succ_eq_next_iff.mpr ⟨u, hs, hk⟩⟩

/-- One run after another. -/
theorem Reaches.trans {s u t : State} (hs : Reaches s u) (h : Reaches u t) : Reaches s t := by
  obtain ⟨k, hk⟩ := hs
  induction k generalizing s with
  | zero => exact Host.Outcome.next.inj hk ▸ h
  | succ k ih =>
    obtain ⟨v, hv, hrun⟩ := run_succ_eq_next_iff.mp hk
    exact .head hv (ih hrun)

/-! ### A command between its `CMD` write and the end of `WAIT_IDLE` (R86, R88) -/

/-- A perform step takes no operation off the host's list (R34). -/
theorem exec_inputs {i : Instr} {s t : State} (h : exec i s = .next t) : t.inputs = s.inputs := by
  cases i with
  | mvmul | msqr | minit => obtain rfl := Host.Outcome.next.inj h; simp
  | combine =>
    rw [exec, execCombine] at h
    split at h <;> obtain rfl := Host.Outcome.next.inj h <;> simp

section
variable {s : State} {rest : List HostOp}

/-- While a command is pending, `WAIT_IDLE` polls until it is the engine's turn, and nothing of the block changes (R88,
R188). -/
theorem reaches_engineTurn_of_waitIdle (hb : s.phase = .busy) (hi : s.inputs = .waitIdle :: rest) :
    ∃ u, Reaches s u ∧ u.engineTurn = true ∧ u.inputs = s.inputs ∧ SameBlock s u := by
  induction hw : s.wait generalizing s with
  | zero => exact ⟨s, .refl s, s.engineTurn_iff_busy_and_due.mpr ⟨hb, .inl hw⟩, rfl, sameBlock_refl s⟩
  | succ n ih =>
    have hne : s.engineTurn = false := by simp [State.engineTurn, hw, hi]
    have hpoll : step s = .next ((s.tick s.inputs).respond (.data s.statusWord)) := by
      rw [step_of_waitIdle hne hi, hostPoll_eq, if_pos hb, ← hi]
    obtain ⟨u, hreach, hturn, hin, hsame⟩ :=
      ih (s := (s.tick s.inputs).respond (.data s.statusWord)) hb hi (by simp [hw])
    exact ⟨u, .head hpoll hreach, hturn, hin, hsame⟩

/-- A command and `WAIT_IDLE` after it, from an IDLE state: whatever the latency, the command is performed on the operands and
results of that state, and the last poll follows (R86, R88). -/
theorem reaches_exec_of_command {i : Instr} (hidle : s.phase = .idle)
    (hi : s.inputs = commandOp i :: .waitIdle :: rest) :
    ∃ u t, SameOperands s u ∧ SameResults s u ∧ u.cmderr = s.cmderr ∧ u.ovr = s.ovr ∧ exec i u = .next t ∧
      Reaches s ((t.tick rest).respond (.data t.statusWord)) := by
  have haccept : step s = .next (((s.tick (.waitIdle :: rest)).accept (encode i)).respond .ack) :=
    step_of_legal_cmd hidle ⟨i, decode_encode i⟩ ⟨s.engineTurn_of_idle hidle, hi⟩
  obtain ⟨u, hreach, hturn, hin, hop, hres, -, hcmderr, hovr, -, hpend⟩ := reaches_engineTurn_of_waitIdle
    (s := ((s.tick (.waitIdle :: rest)).accept (encode i)).respond .ack) rfl rfl
  obtain ⟨t, ht⟩ := exec_is_next i u
  have hdecode : decode u.pending = .ok i := (congrArg decode hpend).trans (decode_encode i)
  have hperform : step u = .next t := (step_eq_exec_of_decode hturn hdecode).trans ht
  have hpoll : step t = .next ((t.tick rest).respond (.data t.statusWord)) := by
    obtain ⟨hti, -⟩ := exec_control ht
    rw [step_of_waitIdle (t.engineTurn_of_idle hti) ((exec_inputs ht).trans hin), hostPoll_eq, if_neg (by simp [hti])]
  exact ⟨u, t, hop, hres, hcmderr, hovr, ht, .head haccept (hreach.trans (.head hperform (.head hpoll (.refl _))))⟩

/-! ### CRC32_COMBINE (R88, R89) -/

/-- A write to a data register leaves the error bits as they were (R56). -/
theorem State.writeIdle_errorBits (s : State) {r : Reg} (v : Word) (hg : r.guarded = true) (hc : r ≠ .cmd) :
    (s.writeIdle r v).cmderr = s.cmderr ∧ (s.writeIdle r v).ovr = s.ovr := by
  cases r with
  | cmd => exact absurd rfl hc
  | status | result => cases hg
  | row b n => exact ⟨s.setBank_cmderr .., s.setBank_ovr ..⟩
  | crc1 | crc2 | len2Lo | len2Hi | vec => exact ⟨rfl, rfl⟩

/-- One host write to a data register while IDLE: the register holds the word, every other register but `STATUS`, and the
error bits, are as they were (R56). -/
theorem step_of_idle_write {r : Reg} {v : Word} (hg : r.guarded = true) (hc : r ≠ .cmd) (hidle : s.phase = .idle)
    (hi : s.inputs = writeOp r v :: rest) :
    ∃ t, step s = .next t ∧ t.inputs = rest ∧ t.phase = .idle ∧ t.cmderr = s.cmderr ∧ t.ovr = s.ovr ∧ t.regValue r = v ∧
      ∀ r', r' ≠ r → r' ≠ .status → t.regValue r' = s.regValue r' := by
  have hw : (s.tick rest).writeReg (some r) v = (s.tick rest).writeIdle r v :=
    State.writeReg_of_unguarded (s := s.tick rest) (.inl hidle) v
  obtain ⟨hcmderr, hovr⟩ := (s.tick rest).writeIdle_errorBits v hg hc
  refine ⟨_, step_of_writeOp ⟨s.engineTurn_of_idle hidle, hi⟩, State.writeReg_inputs .., ?phase, hw ▸ hcmderr, hw ▸ hovr,
    ?same, fun r' hne hs => ?other⟩
  case phase => rw [State.respond_phase, hw, State.writeIdle_phase _ v hc, State.tick_phase, hidle]
  case same => rw [State.regValue_respond, hw, State.regValue_writeIdle_same _ v hg hc]
  case other => rw [State.regValue_respond, hw, State.regValue_writeIdle_of_ne _ v hne hs, State.regValue_tick]

/-- Host writes to distinct data registers, from an IDLE state: each register holds its word (R56, R88). -/
theorem reaches_of_idle_writes (ws : List (Reg × Word)) (hdata : ∀ w ∈ ws, w.1.guarded = true ∧ w.1 ≠ .cmd)
    (hdistinct : (ws.map Prod.fst).Nodup) (hidle : s.phase = .idle)
    (hi : s.inputs = ws.map (fun w => writeOp w.1 w.2) ++ rest) :
    ∃ t, Reaches s t ∧ t.inputs = rest ∧ t.phase = .idle ∧ t.cmderr = s.cmderr ∧ t.ovr = s.ovr ∧
      (∀ w ∈ ws, t.regValue w.1 = w.2) ∧ ∀ r, r ∉ ws.map Prod.fst → r ≠ .status → t.regValue r = s.regValue r := by
  induction ws generalizing s with
  | nil => exact ⟨s, .refl s, hi, hidle, rfl, rfl, by simp, fun _ _ _ => rfl⟩
  | cons w ws ih =>
    obtain ⟨⟨hg, hc⟩, hdata⟩ := List.forall_mem_cons.mp hdata
    obtain ⟨hnew, hdistinct⟩ := List.nodup_cons.mp hdistinct
    obtain ⟨u, hstep, huin, huidle, hucmderr, huovr, husame, huother⟩ := step_of_idle_write hg hc hidle hi
    obtain ⟨t, hreach, hin, htidle, hcmderr, hovr, hsame, hother⟩ := ih hdata hdistinct huidle huin
    have hws : w.1 ≠ .status := fun h => by simp [h, Reg.guarded] at hg
    refine ⟨t, .head hstep hreach, hin, htidle, hcmderr.trans hucmderr, hovr.trans huovr,
      List.forall_mem_cons.mpr ⟨(hother w.1 hnew hws).trans husame, hsame⟩, fun r hr hs => ?other⟩
    case other =>
      obtain ⟨hne, hr⟩ := List.ne_and_not_mem_of_not_mem_cons hr
      exact (hother r hr hs).trans (huother r hne hs)

/-- The operand writes of CRC32_COMBINE. -/
def combineOperands (c1 c2 : Word) (x : BitVec 64) : List (Reg × Word) :=
  [(.crc1, c1), (.crc2, c2), (.len2Lo, x.extractLsb' 0 32), (.len2Hi, x.extractLsb' 32 32)]

/-- CRC32_COMBINE is its operand writes, the command, the poll loop and the read of `RESULT` (R88). -/
theorem crc32Combine_eq (c1 c2 : Word) (x : BitVec 64) : crc32Combine c1 c2 x =
    (combineOperands c1 c2 x).map (fun w => writeOp w.1 w.2) ++ [commandOp .combine, .waitIdle, readOp .result] := rfl

/-- The operand writes of CRC32_COMBINE, from an IDLE state: the operands are in place (R23 to R25, R88). -/
theorem reaches_operands {c1 c2 : Word} {x : BitVec 64} (hidle : s.phase = .idle)
    (hi : s.inputs = (combineOperands c1 c2 x).map (fun w => writeOp w.1 w.2) ++ rest) :
    ∃ t, Reaches s t ∧ t.inputs = rest ∧ t.phase = .idle ∧ t.cmderr = s.cmderr ∧ t.ovr = s.ovr ∧
      t.crc1 = c1 ∧ t.crc2 = c2 ∧ t.len2 = x := by
  obtain ⟨t, hreach, hin, htidle, hcmderr, hovr, hops, -⟩ := reaches_of_idle_writes (combineOperands c1 c2 x)
    (by simp [combineOperands, Reg.guarded]) (by simp [combineOperands]) hidle hi
  obtain ⟨hc1, hc2, hlo, hhi⟩ :
      t.crc1 = c1 ∧ t.crc2 = c2 ∧ t.len2Lo = x.extractLsb' 0 32 ∧ t.len2Hi = x.extractLsb' 32 32 := by
    simpa [combineOperands, State.regValue] using hops
  have hlen : t.len2 = x := by
    rw [State.len2, hlo, hhi, BitVec.extractLsb'_append_extractLsb'_eq_extractLsb' (Nat.zero_add 32).symm,
      BitVec.extractLsb'_eq_self]
  exact ⟨t, hreach, hin, htidle, hcmderr, hovr, hc1, hc2, hlen⟩

end

/-- Settles O45: the operands are in place when the command is accepted, it is performed on them whatever the latency, and the
value read from `RESULT` is COMBINE's closed form. -/
theorem crc32CombineReturnsCombination : Obligations.Crc32CombineReturnsCombination := by
  intro s c1 c2 x rest hidle hi
  rw [crc32Combine_eq, List.append_assoc] at hi
  obtain ⟨a, hsa, hain, haidle, hacmderr, haovr, rfl, rfl, rfl⟩ := reaches_operands hidle hi
  obtain ⟨u, t, ⟨h1, h2, hlo, hhi, -⟩, -, hucmderr, huovr, hx, hat⟩ := reaches_exec_of_command haidle hain
  obtain ⟨htidle, htdone, htcmderr, htovr⟩ := exec_control hx
  have hlen : u.len2 = a.len2 := by rw [State.len2, State.len2, hlo, hhi]
  have hread := step_of_readOp_value (s := (t.tick _).respond (.data t.statusWord)) (r := .result) (rest := rest)
    (.inl htidle) ⟨State.engineTurn_of_idle _ htidle, rfl⟩
  obtain ⟨k, hk⟩ := (hsa.trans hat).trans (.head hread (.refl _))
  refine ⟨k, _, hk, rfl, htidle, htdone, ?_, ?_, ?_⟩
  · exact htovr.trans (huovr.trans haovr)
  · exact htcmderr.trans (hucmderr.trans hacmderr)
  · have hr := result_of_exec_combine hx
    rw [hlen, h1, h2] at hr
    exact congrArg (fun w => some (Response.data w)) hr

end Sys2Proof.Machine
end

section
/-!
PROOFS. The GF(2) matrix functions (spec 40, R100 to R108). `apply` adds the rows that the vector selects, and its properties
(O17, O18) are read off the list of selected rows. A matrix is determined by how it acts, and a linear function acts as the
matrix of its values on the basis vectors: from these, what `square` (O19), `ODD0` (O20) and its powers (O21) are.
-/

namespace Sys2Proof.Machine

/-! ### The rows a vector selects (R100, R101) -/

/-- The positions of the rows that `v` selects, lowest first. -/
def selectedRows (v : Word) : List (Fin 32) := (List.finRange 32).filter fun i => v.getLsbD i.val

/-- Row `i` added to an accumulator. -/
def addRow (m : Mat) (acc : Word) (i : Fin 32) : Word := acc ^^^ m[i]

/-- The turns of the rows in any list add the rows of the list that `v` selects. -/
theorem foldl_gf2Step_eq_filter (m : Mat) (v acc : Word) (l : List (Fin 32)) :
    l.foldl (gf2Step m v) acc = (l.filter fun i => v.getLsbD i.val).foldl (addRow m) acc :=
  List.foldl_filter.symm

/-- `apply` adds the selected rows (R100). -/
theorem gf2Apply_eq_foldl_selectedRows (m : Mat) (v : Word) : gf2Apply m v = (selectedRows v).foldl (addRow m) 0#32 :=
  foldl_gf2Step_eq_filter m v 0#32 _

/-- A bit of a sum of rows is the parity of the rows that have the bit. -/
theorem getLsbD_foldl_addRow (m : Mat) (acc : Word) (j : Nat) (l : List (Fin 32)) :
    (l.foldl (addRow m) acc).getLsbD j =
      (acc.getLsbD j ^^ decide (l.countP (fun i => (m[i]).getLsbD j) % 2 = 1)) := by
  induction l generalizing acc with
  | nil => simp
  | cons i l ih =>
    rw [List.foldl_cons, ih, addRow, BitVec.getLsbD_xor, Bool.xor_assoc, List.countP_cons]
    cases (m[i]).getLsbD j with
    | false => simp
    | true =>
      have hparity (n : Nat) : (n + 1) % 2 = 1 ↔ ¬ n % 2 = 1 := by omega
      rw [if_pos rfl, decide_eq_decide.mpr (hparity _), decide_not, Bool.true_xor]

/-- Settles O17: a bit of the sum of the selected rows is the parity of the selected rows that have the bit. -/
theorem applyIsXorOfSelectedRows : Obligations.ApplyIsXorOfSelectedRows := by
  intro m v j
  rw [gf2Apply_eq_foldl_selectedRows, getLsbD_foldl_addRow, BitVec.getLsbD_zero, Bool.false_xor, selectedRows,
    List.countP_filter, List.countP_eq_length_filter]
  simp only [Bool.and_comm]

/-- Past the last set bit of `v` no row is selected. -/
theorem filter_drop_eq_nil {v : Word} {k : Nat} (h : v >>> k = 0#32) :
    ((List.finRange 32).drop k).filter (fun i => v.getLsbD i.val) = [] := by
  rw [List.filter_eq_nil_iff]
  intro i hi
  obtain ⟨n, hn, rfl⟩ := List.mem_drop_iff_getElem.mp hi
  have hbit : (v >>> k).getLsbD n = false := by rw [h, BitVec.getLsbD_zero]
  rw [BitVec.getLsbD_ushiftRight] at hbit
  simp [hbit]

/-- Stopping when the remaining bits are zero gives the same value (R101). -/
theorem gf2Apply_eq_foldl_take (m : Mat) {v : Word} {k : Nat} (h : v >>> k = 0#32) :
    gf2Apply m v = ((List.finRange 32).take k).foldl (gf2Step m v) 0#32 := by
  rw [gf2Apply_eq_foldl_selectedRows, foldl_gf2Step_eq_filter, selectedRows, ← List.take_append_drop k (List.finRange 32),
    List.filter_append, filter_drop_eq_nil h, List.append_nil, List.take_append_drop]

/-- A basis vector selects its own row alone. -/
theorem selectedRows_basis (i : Fin 32) : selectedRows (1#32 <<< i.val) = [i] := by
  have hbit (k : Fin 32) : (1#32 <<< i.val).getLsbD k.val = decide (k = i) := by
    rw [← BitVec.twoPow_eq, BitVec.getLsbD_twoPow]
    simp [Fin.ext_iff, eq_comm]
  simp only [selectedRows, hbit]
  rw [List.filter_eq, List.count_eq_one_of_mem (List.nodup_finRange 32) (List.mem_finRange i), List.replicate_one]

/-- `apply` of a basis vector is the row it selects (R101). -/
theorem gf2Apply_basis (m : Mat) (i : Fin 32) : gf2Apply m (1#32 <<< i.val) = m[i] := by
  rw [gf2Apply_eq_foldl_selectedRows, selectedRows_basis, List.foldl_cons, List.foldl_nil, addRow, BitVec.zero_xor]

/-- `apply` of the zero vector (R101). -/
theorem gf2Apply_zero (m : Mat) : gf2Apply m 0#32 = 0#32 := map_zero_of_map_xor (gf2Apply_xor m)

/-- Settles O18: each clause is a lemma about the selected rows. -/
theorem applyIsLinear : Obligations.ApplyIsLinear := fun m =>
  ⟨gf2Apply_zero m, fun _ _ h => gf2Apply_eq_foldl_take m h, gf2Apply_xor m, gf2Apply_basis m, gf2Apply_gf2Identity⟩

/-! ### Matrices and the functions they act as (R10, R102) -/

/-- A matrix is determined by how it acts. -/
theorem mat_ext_gf2Apply {m m' : Mat} (h : ∀ v, gf2Apply m v = gf2Apply m' v) : m = m' := by
  ext n hn : 1
  exact (gf2Apply_basis m ⟨n, hn⟩).symm.trans ((h _).trans (gf2Apply_basis m' ⟨n, hn⟩))

/-- A linear function acts as the matrix of its values on the basis vectors. -/
theorem gf2Apply_eq_of_rows {f : Word → Word} (hf : ∀ u v, f (u ^^^ v) = f u ^^^ f v) {m : Mat}
    (hrows : ∀ n : Fin 32, m[n] = f (1#32 <<< n.val)) (v : Word) : gf2Apply m v = f v := by
  have hm : m = gf2Identity.map f := by
    ext n hn : 1
    simpa [gf2Identity] using hrows ⟨n, hn⟩
  rw [hm, ← map_gf2Apply hf, gf2Apply_gf2Identity]

/-- A row of the square is the matrix applied to its own row (R102). -/
theorem gf2Square_row (m : Mat) (n : Fin 32) : (gf2Square m)[n] = gf2Apply m m[n] := by simp [gf2Square]

/-- Settles O19: `square` is defined row by row, and acts twice because `apply` is linear. -/
theorem squareActsTwice : Obligations.SquareActsTwice := fun m => ⟨gf2Square_row m, gf2Apply_gf2Square m⟩

/-! ### One zero bit (R104) -/

/-- The reflected CRC register after one zero bit: shifted right, the polynomial added if a 1 came out (R104). -/
def shiftOneBit (v : Word) : Word := (v >>> 1) ^^^ (if v.getLsbD 0 then 0xEDB88320#32 else 0#32)

/-- Shifting one bit is linear. -/
theorem shiftOneBit_xor (u v : Word) : shiftOneBit (u ^^^ v) = shiftOneBit u ^^^ shiftOneBit v := by
  have hout (a b : Bool) : (if (a ^^ b) then 0xEDB88320#32 else 0#32) =
      (if a then 0xEDB88320#32 else 0#32) ^^^ (if b then 0xEDB88320#32 else 0#32) := by cases a <;> cases b <;> rfl
  rw [shiftOneBit, shiftOneBit, shiftOneBit, BitVec.ushiftRight_xor_distrib, BitVec.getLsbD_xor, hout]
  ac_rfl

/-- A set bit above bit 0 moves down one place. -/
theorem shiftOneBit_basis_succ {n : Nat} (hn : n + 1 < 32) : shiftOneBit (1#32 <<< (n + 1)) = 1#32 <<< n := by
  have hout : (1#32 <<< (n + 1)).getLsbD 0 = false := by simp
  rw [shiftOneBit, hout, if_neg Bool.false_ne_true, BitVec.xor_zero, ← BitVec.twoPow_eq, ← BitVec.twoPow_eq]
  refine BitVec.eq_of_getLsbD_eq fun j hj => ?_
  rw [BitVec.getLsbD_ushiftRight, BitVec.getLsbD_twoPow, BitVec.getLsbD_twoPow]
  grind

/-- A row of `ODD0` is the shift of its basis vector (R104). -/
theorem odd0_row (n : Fin 32) : odd0[n] = shiftOneBit (1#32 <<< n.val) := by
  obtain ⟨_ | n, hn⟩ := n
  · simp [odd0, shiftOneBit, Config.poly]
  · rw [shiftOneBit_basis_succ hn]
    simp [odd0]

/-- Row 0 of `ODD0` is the polynomial (R104). -/
theorem odd0_row_zero : odd0[0] = 0xEDB88320#32 := odd0_row 0

/-- Above row 0 the rows of `ODD0` are basis vectors (R104). -/
theorem odd0_row_of_ne_zero (n : Fin 32) (h : n.val ≠ 0) : odd0[n] = 1#32 <<< (n.val - 1) := by
  rw [odd0, Fin.getElem_fin, Vector.getElem_ofFn, if_neg h]

/-- `ODD0` acts as one zero bit (R104). -/
theorem gf2Apply_odd0 (v : Word) : gf2Apply odd0 v = shiftOneBit v := gf2Apply_eq_of_rows shiftOneBit_xor odd0_row v

/-- Settles O20: shifting one bit is linear, and `ODD0` holds its values on the basis vectors. -/
theorem oddZeroShiftsOneBit : Obligations.OddZeroShiftsOneBit := ⟨odd0_row_zero, odd0_row_of_ne_zero, gf2Apply_odd0⟩

/-! ### Powers of `ODD0` (R108) -/

/-- The matrix that shifts `k` bits is `P^k`. -/
theorem ShiftsBy.eq_oddPower {m : Mat} {k : Nat} (h : ShiftsBy m k) : m = oddPower k :=
  mat_ext_gf2Apply fun v => by rw [h, shiftsBy_oddPower]

/-- The square of `P^k` is `P^(2k)` (R108). -/
theorem gf2Square_oddPower (k : Nat) : gf2Square (oddPower k) = oddPower (2 * k) := (shiftsBy_oddPower k).square.eq_oddPower

/-- Shifting `k` bits is `k` shifts of one bit. -/
theorem shiftBits_eq_iterate (k : Nat) : shiftBits k = shiftOneBit^[k] := by
  have hone : gf2Apply odd0 = shiftOneBit := funext gf2Apply_odd0
  funext v
  rw [shiftBits, hone]

/-- A row of `P^k` is its basis vector shifted `k` times. -/
theorem oddPower_row (k : Nat) (n : Fin 32) : (oddPower k)[n] = shiftOneBit^[k] (1#32 <<< n.val) := by
  simp [oddPower, shiftBits_eq_iterate]

/-- A set bit at position `k` or above moves down `k` places in `k` shifts. -/
theorem iterate_shiftOneBit_basis {n k : Nat} (h : n + k < 32) : shiftOneBit^[k] (1#32 <<< (n + k)) = 1#32 <<< n := by
  induction k with
  | zero => rfl
  | succ k ih => rw [Function.iterate_succ_apply, ← Nat.add_assoc, shiftOneBit_basis_succ (by omega), ih (by omega)]

/-- From row `k` on, the rows of `P^k` are basis vectors (R108). -/
theorem oddPower_row_of_le {k : Nat} (n : Fin 32) (h : k ≤ n.val) : (oddPower k)[n] = 1#32 <<< (n.val - k) := by
  have hn : n.val = n.val - k + k := by omega
  rw [oddPower_row, hn, iterate_shiftOneBit_basis (by omega), Nat.add_sub_cancel]

/-- The first eight rows of `P^8`, a byte's worth of zero bits (R108). -/
theorem oddPower_eight_take : (oddPower 8).toList.take 8 = [0x77073096#32, 0xEE0E612C#32, 0x076DC419#32, 0x0EDB8832#32,
    0x1DB71064#32, 0x3B6E20C8#32, 0x76DC4190#32, 0xEDB88320#32] := by
  rw [oddPower, shiftBits_eq_iterate]
  decide

/-- Settles O21: `P^k` is the one matrix that shifts `k` bits, and its rows are the shifted basis vectors. -/
theorem powersOfOddZero : Obligations.PowersOfOddZero :=
  ⟨shiftsBy_odd0.eq_oddPower.symm, gf2Square_oddPower, shiftsBy_oddPower,
    fun a b v => by simp only [shiftsBy_oddPower _ _, shiftBits_shiftBits], oddPower_eight_take,
    fun n => oddPower_row_of_le n⟩

end Sys2Proof.Machine
end

section
/-!
PROOFS. The commands of the matrix engine (spec 40 section 2): MVMUL (O22), MSQR (O23) and MINIT (O24), each the perform step as
one equation, with the corner cases of R105 and R106 as facts about `apply` and `square`.
-/

namespace Sys2Proof.Machine

/-! ### Corner cases of `apply` and `square` (R105, R106) -/

/-- The rows of a matrix in the order of their positions. -/
theorem mat_toList_eq_map (m : Mat) : m.toList = (List.finRange 32).map fun i => m[i] := by
  refine List.ext_getElem (by simp) fun n _ _ => ?_
  simp

/-- The all-ones vector selects every row. -/
theorem selectedRows_allOnes : selectedRows 0xFFFFFFFF#32 = List.finRange 32 := by
  have hones : 0xFFFFFFFF#32 = BitVec.allOnes 32 := rfl
  refine List.filter_eq_self.mpr fun i _ => ?_
  rw [hones, BitVec.getLsbD_allOnes, decide_eq_true i.isLt]

/-- `apply` of the all-ones vector is the XOR of all rows (R105). -/
theorem gf2Apply_allOnes (m : Mat) : gf2Apply m 0xFFFFFFFF#32 = m.toList.foldl (· ^^^ ·) 0#32 := by
  rw [gf2Apply_eq_foldl_selectedRows, selectedRows_allOnes, mat_toList_eq_map, List.foldl_map]
  rfl

/-- The square of the identity (R106). -/
theorem gf2Square_gf2Identity : gf2Square gf2Identity = gf2Identity :=
  mat_ext_gf2Apply fun v => by rw [gf2Apply_gf2Square, gf2Apply_gf2Identity]

/-- A square whose rows are all zero is the zero matrix. -/
theorem gf2Square_eq_gf2Zero {m : Mat} (h : ∀ n : Fin 32, gf2Apply m m[n] = 0#32) : gf2Square m = gf2Zero := by
  ext n hn : 1
  have hrow := (gf2Square_row m ⟨n, hn⟩).trans (h ⟨n, hn⟩)
  simpa [gf2Zero] using hrow

/-- The square of the zero matrix (R106). -/
theorem gf2Square_gf2Zero : gf2Square gf2Zero = gf2Zero :=
  gf2Square_eq_gf2Zero fun n => by
    have hrow : gf2Zero[n] = 0#32 := by simp [gf2Zero]
    rw [hrow, gf2Apply_zero]

/-- The square of the all-ones matrix: 32 equal rows cancel in pairs (R106). -/
theorem gf2Square_of_rows_allOnes {m : Mat} (h : ∀ n : Fin 32, m[n] = 0xFFFFFFFF#32) : gf2Square m = gf2Zero :=
  gf2Square_eq_gf2Zero fun n => by
    have hlist : m.toList = List.replicate 32 0xFFFFFFFF#32 := by
      rw [mat_toList_eq_map, List.map_congr_left fun i _ => h i, List.map_const', List.length_finRange]
    rw [h n, gf2Apply_allOnes, hlist]
    rfl

/-- The square of `ODD0` (R106, R108). -/
theorem gf2Square_odd0 : gf2Square odd0 = oddPower 2 := shiftsBy_odd0.square.eq_oddPower

/-- The first two rows of `P^2` (R106). -/
theorem oddPower_two_rows : (oddPower 2)[0] = 0x76DC4190#32 ∧ (oddPower 2)[1] = 0xEDB88320#32 := by
  have h0 : (oddPower 2)[0] = shiftOneBit^[2] 1#32 := oddPower_row 2 0
  have h1 : (oddPower 2)[1] = shiftOneBit^[2] 2#32 := oddPower_row 2 1
  rw [h0, h1]
  decide

/-! ### MVMUL (R105) -/

/-- MVMUL's perform step: `RESULT` is the product (R105). -/
theorem exec_mvmul_eq (b : Bank) (s : State) : exec (.mvmul b) s =
    .next { s with result := gf2Apply (s.bank b) s.vec, phase := .idle, done := true } := by
  rw [exec, execMvmul, State.complete_eq]

/-- Settles O22: the corner cases are those of `apply`, put into MVMUL's one equation. -/
theorem mvmulWritesProduct : Obligations.MvmulWritesProduct := by
  intro b s
  refine ⟨exec_mvmul_eq b s, ?word, fun hv => ?zero, fun i hv => ?basis, fun hv => ?ones, fun hm => ?identity,
    fun hm hv => ?three⟩
  case word => cases b <;> decide
  case zero => rw [exec_mvmul_eq, hv, gf2Apply_zero]
  case basis => rw [exec_mvmul_eq, hv, gf2Apply_basis]
  case ones => rw [exec_mvmul_eq, hv, gf2Apply_allOnes]
  case identity => rw [exec_mvmul_eq, hm, gf2Apply_gf2Identity]
  case three =>
    have hthree : shiftOneBit 3#32 = 0xEDB88321#32 := by decide
    rw [exec_mvmul_eq, hm, hv, gf2Apply_odd0, hthree]

/-! ### MSQR (R103, R106) -/

/-- MSQR's perform step: the destination bank is the square of the source bank it read (R103, R106). -/
theorem exec_msqr_eq (d b : Bank) (s : State) :
    exec (.msqr d b) s = .next (s.setBank d (gf2Square (s.bank b))).complete := rfl

/-- MSQR completes with the destination bank written and every other field of the state as it was (R34, R106). -/
theorem exec_msqr_frame (d b : Bank) (s : State) : ∃ t, exec (.msqr d b) s = .next t ∧
    t.bank d = gf2Square (s.bank b) ∧ t.bank d.other = s.bank d.other ∧ SameOperands s t ∧ t.result = s.result ∧
    t.phase = .idle ∧ t.done = true ∧ t.cmderr = s.cmderr ∧ t.ovr = s.ovr ∧ t.pending = s.pending ∧ t.wait = s.wait ∧
    t.draws = s.draws ∧ t.inputs = s.inputs ∧ t.responses = s.responses :=
  ⟨_, exec_msqr_eq d b s, by simp [SameOperands]⟩

/-- Settles O23: the frame of MSQR, and its corner cases as facts about the square of the old source bank. -/
theorem msqrWritesSquareOfOldBank : Obligations.MsqrWritesSquareOfOldBank := by
  refine ⟨fun d b s => ?state, by decide, by decide, by decide, by decide⟩
  obtain ⟨t, hexec, hsq, hother, hops, hresult, hphase, hdone, hcmderr, hovr, hpending, hwait, hdraws, hinputs, hresponses⟩ :=
    exec_msqr_frame d b s
  refine ⟨t, hexec, fun n => hsq ▸ gf2Square_row _ n, hother, hops, hresult, hphase, hdone, hcmderr, hovr, hpending, hwait,
    hdraws, hinputs, hresponses, ?_⟩
  rw [hsq]
  refine ⟨fun h => ?identity, fun h => ?zero, gf2Square_of_rows_allOnes, fun h => ?odd0⟩
  case identity => rw [h, gf2Square_gf2Identity]
  case zero => rw [h, gf2Square_gf2Zero]
  case odd0 =>
    obtain ⟨h0, h1⟩ := oddPower_two_rows
    rw [h, gf2Square_odd0]
    exact ⟨h0, h1, fun n => oddPower_row_of_le n⟩

/-! ### MINIT (R107) -/

/-- MINIT's perform step: the destination bank is `ODD0` (R107). -/
theorem exec_minit_eq (d : Bank) (s : State) : exec (.minit d) s = .next (s.setBank d odd0).complete := rfl

/-- Settles O24: one equation for both banks, the words, and rows of `ODD0`. -/
theorem minitLoadsOddZero : Obligations.MinitLoadsOddZero := by
  refine ⟨fun s => ⟨?mat0, ?mat1⟩, by decide, by decide, by decide, odd0_row_zero, ?row1, ?row31⟩
  case mat0 => rw [exec_minit_eq, State.setBank_mat0_eq, State.complete_eq]
  case mat1 => rw [exec_minit_eq, State.setBank_mat1_eq, State.complete_eq]
  case row1 => exact odd0_row_of_ne_zero 1 (by decide)
  case row31 => exact odd0_row_of_ne_zero 31 (by decide)

end Sys2Proof.Machine
end

section
/-!
PROOFS. COMBINE (41_combine.md). R131's loop is described pass by pass: what each pass does to the banks, the running value and
the counter, and that the counter is zero after `bitlength(LEN2)` passes and not before (R134, R139; O28, O27). The host's
sequence of primitives makes the same passes (R138; O29). The values are in closed form (R132, R135; O25, O26), and the CRC-32 of
a concatenation obeys that form (R136; O30).
-/

namespace Sys2Proof.Machine

/-! ### One pass (R131, R134) -/

/-- COMBINE's working banks by name (R131: EVEN is `MAT[0]`, ODD is `MAT[1]`). -/
def CombineRegs.bank (b : Bank) (r : CombineRegs) : Mat :=
  match b with
  | .mat0 => r.even
  | .mat1 => r.odd

@[simp] theorem CombineRegs.bank_mat0 (r : CombineRegs) : r.bank .mat0 = r.even := by cases r; rfl
@[simp] theorem CombineRegs.bank_mat1 (r : CombineRegs) : r.bank .mat1 = r.odd := by cases r; rfl

/-- There are two banks (R21). -/
theorem Bank.eq_or_eq_other (b d : Bank) : b = d ∨ b = d.other := by cases b <;> cases d <;> simp [Bank.other]

/-- The other bank's other bank is the bank itself. -/
theorem Bank.other_other (b : Bank) : b.other.other = b := by cases b <;> rfl

/-- The bank that pass `k` writes (R134). -/
def passBank (k : Nat) : Bank := if k % 2 = 0 then .mat0 else .mat1

/-- Even passes write `MAT[0]`. -/
theorem passBank_of_even {k : Nat} (h : k % 2 = 0) : passBank k = .mat0 := if_pos h

/-- Odd passes write `MAT[1]`. -/
theorem passBank_of_odd {k : Nat} (h : k % 2 = 1) : passBank k = .mat1 := if_neg (by omega)

/-- The passes write the banks alternately (R134). -/
theorem passBank_succ (k : Nat) : passBank (k + 1) = (passBank k).other := by
  rcases Nat.mod_two_eq_zero_or_one k with h | h
  · rw [passBank_of_even h, passBank_of_odd (by omega), Bank.other]
  · rw [passBank_of_odd h, passBank_of_even (by omega), Bank.other]

/-- Pass `k` of the loop, field by field: it squares the other bank into its own, applies the square when the counter's bit 0
is 1, and shifts the counter (R131). -/
theorem combineRun_succ_spec (k : Nat) (r : CombineRegs) :
    (combineRun (k + 1) r).bank (passBank k) = gf2Square ((combineRun k r).bank (passBank k).other) ∧
    (combineRun (k + 1) r).bank (passBank k).other = (combineRun k r).bank (passBank k).other ∧
    (combineRun (k + 1) r).c = (if (combineRun k r).n.getLsbD 0 then
      gf2Apply (gf2Square ((combineRun k r).bank (passBank k).other)) (combineRun k r).c else (combineRun k r).c) ∧
    (combineRun (k + 1) r).n = (combineRun k r).n >>> 1 := by
  rcases Nat.mod_two_eq_zero_or_one k with h | h
  · rw [combineRun_succ_of_even r h, passBank_of_even h]
    exact ⟨combinePassEven_even _, combinePassEven_odd _, combinePassEven_c _, combinePassEven_n _⟩
  · rw [combineRun_succ_of_odd r h, passBank_of_odd h]
    exact ⟨combinePassOdd_odd _, combinePassOdd_even _, combinePassOdd_c _, combinePassOdd_n _⟩

/-! ### The counter and the exit (R139) -/

/-- The counter after `k` passes. -/
theorem combineRun_n (k : Nat) (r : CombineRegs) : (combineRun k r).n = r.n >>> k := by
  induction k with
  | zero => rw [combineRun_zero, BitVec.ushiftRight_zero]
  | succ k ih =>
    obtain ⟨-, -, -, hn⟩ := combineRun_succ_spec k r
    rw [hn, ih, BitVec.shiftRight_add]

/-- The counter is zero exactly from its bit length's pass on. -/
theorem combineRun_n_eq_zero_iff (k : Nat) (r : CombineRegs) : (combineRun k r).n = 0#64 ↔ Nat.size r.n.toNat ≤ k := by
  rw [combineRun_n, Nat.size_le, BitVec.toNat_eq, BitVec.toNat_ushiftRight, Nat.shiftRight_eq_div_pow, BitVec.toNat_ofNat,
    Nat.zero_mod, Nat.div_eq_zero_iff_lt (Nat.two_pow_pos k)]

/-- The length has at most 64 bits. -/
theorem size_toNat_le (n : BitVec 64) : Nat.size n.toNat ≤ 64 := Nat.size_le.mpr n.isLt

/-- A non-zero length has at least one bit. -/
theorem size_toNat_pos {n : BitVec 64} (h : n ≠ 0#64) : 0 < Nat.size n.toNat :=
  Nat.size_pos.mpr (Nat.pos_of_ne_zero fun hz => h (BitVec.eq_of_toNat_eq hz))

/-- The loop, entered after an even number of passes with the counter not zero and fuel for the passes that remain, leaves after
the pass that makes the counter zero. -/
theorem combineLoop_combineRun (r : CombineRegs) (fuel k : Nat) (hk : k % 2 = 0) (hlt : k < Nat.size r.n.toNat)
    (hle : Nat.size r.n.toNat ≤ k + 2 * fuel) :
    combineLoop fuel (combineRun k r) = combineRun (Nat.size r.n.toNat) r := by
  induction fuel generalizing k with
  | zero => omega
  | succ fuel ih =>
    rw [combineLoop_succ, ← combineRun_succ_of_even r hk, ← combineRun_succ_of_odd r (by omega)]
    simp only [combineRun_n_eq_zero_iff]
    split_ifs with hfirst hsecond
    · have hlast : k + 1 = Nat.size r.n.toNat := by omega
      rw [hlast]
    · have hlast : k + 1 + 1 = Nat.size r.n.toNat := by omega
      rw [hlast]
    · exact ih (k + 1 + 1) (by omega) (by omega) (by omega)

/-- After its setup the loop makes `bitlength(n)` passes. -/
theorem combineLoop_combineSetup (c : Word) {n : BitVec 64} (h : n ≠ 0#64) :
    combineLoop combineFuel (combineSetup c n) = combineRun (Nat.size n.toNat) (combineSetup c n) := by
  have hle : Nat.size n.toNat ≤ 0 + 2 * combineFuel := size_toNat_le n
  have hloop := combineLoop_combineRun (combineSetup c n) combineFuel 0 (Nat.zero_mod 2)
  rw [combineSetup_n, combineRun_zero] at hloop
  exact hloop (size_toNat_pos h) hle

/-- The loop as COMBINE calls it. -/
theorem combineResult_eq_combineRun (c : Word) {n : BitVec 64} (h : n ≠ 0#64) :
    combineResult c n = combineRun (Nat.size n.toNat) (combineSetup c n) := by
  rw [combineResult, combineLoop_combineSetup c h]

/-! ### The banks (R134) -/

/-- Before pass `k` the bank it reads holds `P^(2^(k+2))` and the bank it will write `P^(2^(k+1))`. -/
theorem combineRun_banks (c : Word) (n : BitVec 64) (k : Nat) :
    (combineRun k (combineSetup c n)).bank (passBank k).other = oddPower (2 ^ (k + 2)) ∧
    (combineRun k (combineSetup c n)).bank (passBank k) = oddPower (2 ^ (k + 1)) := by
  induction k with
  | zero =>
    have heven : (combineSetup c n).even = oddPower 2 := by rw [combineSetup_even, gf2Square_odd0]
    have hodd : (combineSetup c n).odd = oddPower 4 := by rw [combineSetup_odd, gf2Square_odd0, gf2Square_oddPower]
    exact ⟨hodd, heven⟩
  | succ k ih =>
    obtain ⟨hread, -⟩ := ih
    obtain ⟨hwritten, hkept, -, -⟩ := combineRun_succ_spec k (combineSetup c n)
    rw [passBank_succ, Bank.other_other, hwritten, hkept, hread, gf2Square_oddPower, ← pow_succ']
    exact ⟨rfl, rfl⟩

/-- Pass `k` writes `P^(2^(k+3))`. -/
theorem combineRun_succ_bank (c : Word) (n : BitVec 64) (k : Nat) :
    (combineRun (k + 1) (combineSetup c n)).bank (passBank k) = oddPower (2 ^ (k + 3)) := by
  obtain ⟨hread, -⟩ := combineRun_banks c n (k + 1)
  rwa [passBank_succ, Bank.other_other] at hread

/-- Settles O28: the counter's bit length says when the loop leaves, and each pass doubles the power. -/
theorem combineLoopTakesBitlengthPasses : Obligations.CombineLoopTakesBitlengthPasses := by
  intro c n hn
  have hexit (k : Nat) : (combineRun k (combineSetup c n)).n = 0#64 ↔ Nat.size n.toNat ≤ k := by
    rw [combineRun_n_eq_zero_iff, combineSetup_n]
  refine ⟨combineLoop_combineSetup c hn, size_toNat_le n, (hexit _).mpr le_rfl,
    fun k hk => mt (hexit k).mp (Nat.not_le_of_lt hk), fun k hk => ?even, fun k hk => ?odd⟩
  case even => simpa only [passBank_of_even hk, CombineRegs.bank_mat0] using combineRun_succ_bank c n k
  case odd => simpa only [passBank_of_odd hk, CombineRegs.bank_mat1] using combineRun_succ_bank c n k

/-- COMBINE with a non-zero length leaves the result and the banks of `bitlength(LEN2)` passes. -/
theorem exec_combine_writes_combineRun {s t : State} (hz : s.lengthNat ≠ 0) (h : exec .combine s = .next t) :
    t.result = (combineRun (Nat.size s.lengthNat) (combineSetup s.crc1 s.len2)).c ^^^ s.crc2 ∧
    ∀ b, t.bank b = (combineRun (Nat.size s.lengthNat) (combineSetup s.crc1 s.len2)).bank b := by
  obtain ⟨hresult, h0, h1⟩ := exec_combine_writes_combineResult hz h
  rw [combineResult_eq_combineRun _ (mt s.len2_eq_zero_iff.mp hz), s.toNat_len2] at hresult h0 h1
  refine ⟨hresult, fun b => ?_⟩
  cases b with
  | mat0 => rw [State.bank_mat0, h0, CombineRegs.bank_mat0]
  | mat1 => rw [State.bank_mat1, h1, CombineRegs.bank_mat1]

/-- Settles O27: the banks before the pass that the loop no longer makes. -/
theorem combineLeavesPowersInBanks : Obligations.CombineLeavesPowersInBanks := by
  intro s hz
  obtain ⟨t, ht⟩ := exec_is_next .combine s
  obtain ⟨-, hbanks⟩ := exec_combine_writes_combineRun hz ht
  obtain ⟨hlast, hprev⟩ := combineRun_banks s.crc1 s.len2 (Nat.size s.lengthNat)
  rw [← hbanks] at hlast hprev
  refine ⟨t, ht, fun hk => ?odd, fun hk => ?even⟩
  case odd =>
    rw [passBank_of_odd hk] at hlast hprev
    exact ⟨hlast, hprev⟩
  case even =>
    rw [passBank_of_even hk] at hlast hprev
    exact ⟨hlast, hprev⟩

/-! ### The sequence of primitives (R138) -/

/-- The state after a command that completes. -/
theorem after_of_next {i : Instr} {s t : State} (h : exec i s = .next t) : after i s = t := by rw [after, h]

/-- The state after MSQR (R106). -/
theorem after_msqr (d b : Bank) (s : State) : after (.msqr d b) s = (s.setBank d (gf2Square (s.bank b))).complete :=
  after_of_next (exec_msqr_eq d b s)

/-- The state after MINIT (R107). -/
theorem after_minit (d : Bank) (s : State) : after (.minit d) s = (s.setBank d odd0).complete :=
  after_of_next (exec_minit_eq d s)

/-- Performing MVMUL puts the product into `RESULT` and leaves the banks (R105). -/
theorem after_mvmul_spec (b : Bank) (s : State) :
    (after (.mvmul b) s).result = gf2Apply (s.bank b) s.vec ∧ ∀ d, (after (.mvmul b) s).bank d = s.bank d := by
  rw [after_of_next (exec_mvmul_eq b s)]
  exact ⟨rfl, fun d => by cases d <;> rfl⟩

/-- A write of `VEC` leaves the banks. -/
theorem State.bank_with_vec (b : Bank) (v : Word) (s : State) : ({ s with vec := v } : State).bank b = s.bank b := by
  cases b <;> rfl

/-- The host's pass leaves the value of its MVMUL, if it makes one, and the banks of its MSQR. -/
theorem primitivePass_spec (d : Bank) (bit : Bool) (c : Word) (s : State) :
    (primitivePass d bit c s).1 = (if bit then gf2Apply (gf2Square (s.bank d.other)) c else c) ∧
    ∀ b, (primitivePass d bit c s).2.bank b = (s.setBank d (gf2Square (s.bank d.other))).bank b := by
  have hmsqr (b : Bank) : (after (.msqr d d.other) s).bank b = (s.setBank d (gf2Square (s.bank d.other))).bank b := by
    rw [after_msqr, State.complete_bank]
  cases bit with
  | false => exact ⟨rfl, hmsqr⟩
  | true =>
    obtain ⟨hresult, hbanks⟩ := after_mvmul_spec d { after (.msqr d d.other) s with vec := c }
    rw [State.bank_with_vec, hmsqr, State.bank_setBank_same] at hresult
    exact ⟨hresult, fun b => (hbanks b).trans ((State.bank_with_vec b c _).trans (hmsqr b))⟩

/-- The state's banks are COMBINE's working banks. -/
def CombineRegs.HeldBy (r : CombineRegs) (s : State) : Prop := ∀ b, s.bank b = r.bank b

/-- The three commands before the host's loop set the banks up as COMBINE does (R131, R138). -/
theorem combineSetup_heldBy (c : Word) (n : BitVec 64) (s : State) : (combineSetup c n).HeldBy
    (after (.msqr .mat1 .mat0) (after (.msqr .mat0 .mat1) (after (.minit .mat1) s))) := by
  intro b
  rw [after_msqr, after_msqr, after_minit]
  cases b with
  | mat0 => simp [combineSetup_even]
  | mat1 => simp [combineSetup_odd]

/-- From banks COMBINE's pass `k` would start with, the host's pass `k` leaves the value and the banks that COMBINE's leaves. -/
theorem primitivePass_heldBy {r : CombineRegs} {k : Nat} {s : State} (h : (combineRun k r).HeldBy s) :
    (primitivePass (passBank k) ((combineRun k r).n.getLsbD 0) (combineRun k r).c s).1 = (combineRun (k + 1) r).c ∧
    (combineRun (k + 1) r).HeldBy
      (primitivePass (passBank k) ((combineRun k r).n.getLsbD 0) (combineRun k r).c s).2 := by
  obtain ⟨hwritten, hkept, hc, -⟩ := combineRun_succ_spec k r
  obtain ⟨hvalue, hbanks⟩ := primitivePass_spec (passBank k) ((combineRun k r).n.getLsbD 0) (combineRun k r).c s
  rw [h] at hvalue hbanks
  refine ⟨by rw [hvalue, hc], fun b => ?_⟩
  rw [hbanks]
  rcases Bank.eq_or_eq_other b (passBank k) with rfl | rfl
  · rw [State.bank_setBank_same, hwritten]
  · rw [State.bank_other_setBank, h, hkept]

/-- One turn of the host's loop: a pass, then the exit test (R138). -/
theorem primitiveLoop_succ (fuel : Nat) (d : Bank) (c : Word) (n : BitVec 64) (s : State) :
    primitiveLoop (fuel + 1) d c n s = if n >>> 1 = 0#64 then primitivePass d (n.getLsbD 0) c s
      else primitiveLoop fuel d.other (primitivePass d (n.getLsbD 0) c s).1 (n >>> 1)
        (primitivePass d (n.getLsbD 0) c s).2 := by
  rw [primitiveLoop]

/-- The host's loop, entered like COMBINE's after `k` passes with fuel for the passes that remain, leaves the value and the banks
of all passes. -/
theorem primitiveLoop_heldBy (r : CombineRegs) (fuel k : Nat) {s : State} (h : (combineRun k r).HeldBy s)
    (hlt : k < Nat.size r.n.toNat) (hle : Nat.size r.n.toNat ≤ k + fuel) :
    (primitiveLoop fuel (passBank k) (combineRun k r).c (combineRun k r).n s).1 = (combineRun (Nat.size r.n.toNat) r).c ∧
    (combineRun (Nat.size r.n.toNat) r).HeldBy
      (primitiveLoop fuel (passBank k) (combineRun k r).c (combineRun k r).n s).2 := by
  induction fuel generalizing k s with
  | zero => omega
  | succ fuel ih =>
    obtain ⟨hc, hheld⟩ := primitivePass_heldBy h
    obtain ⟨-, -, -, hn⟩ := combineRun_succ_spec k r
    simp only [primitiveLoop_succ, ← hn, combineRun_n_eq_zero_iff]
    split_ifs with hzero
    · have hlast : Nat.size r.n.toNat = k + 1 := by omega
      rw [hlast]
      exact ⟨hc, hheld⟩
    · rw [hc, ← passBank_succ]
      exact ih (k + 1) hheld (by omega) (by omega)

/-- The host's whole sequence, for a non-zero length, leaves the value and the banks of `bitlength(LEN2)` passes. -/
theorem primitiveCombine_heldBy {s : State} (hz : s.lengthNat ≠ 0) :
    (primitiveCombine s).1 = (combineRun (Nat.size s.lengthNat) (combineSetup s.crc1 s.len2)).c ∧
    (combineRun (Nat.size s.lengthNat) (combineSetup s.crc1 s.len2)).HeldBy (primitiveCombine s).2 := by
  have hpos : 0 < Nat.size s.len2.toNat := size_toNat_pos (mt s.len2_eq_zero_iff.mp hz)
  have hle : Nat.size s.len2.toNat ≤ 0 + 64 := size_toNat_le s.len2
  have hloop := primitiveLoop_heldBy (combineSetup s.crc1 s.len2) 64 0 (combineSetup_heldBy s.crc1 s.len2 s) hpos hle
  rwa [combineRun_zero, combineSetup_n, combineSetup_c, passBank_of_even rfl, s.toNat_len2, ← primitiveCombine] at hloop

/-- Settles O29: pass by pass the host's loop keeps COMBINE's value and banks. -/
theorem combineMatchesPrimitiveSequence : Obligations.CombineMatchesPrimitiveSequence := by
  intro s hz
  obtain ⟨t, ht⟩ := exec_is_next .combine s
  obtain ⟨hresult, hbanks⟩ := exec_combine_writes_combineRun hz ht
  obtain ⟨hc, hheld⟩ := primitiveCombine_heldBy hz
  refine ⟨t, ht, ?mat0, ?mat1, ?result⟩
  case mat0 => exact (hbanks .mat0).trans (hheld .mat0).symm
  case mat1 => exact (hbanks .mat1).trans (hheld .mat1).symm
  case result => rw [hresult, hc]

/-! ### The closed form (R132, R135) -/

/-- Settles O25: the zero-length branch, as one record update. -/
theorem combineZeroLengthReturnsFirst : Obligations.CombineZeroLengthReturnsFirst := by
  intro s hlo hhi
  have hz : s.len2 = 0#64 := by rw [State.len2, hlo, hhi, BitVec.zero_append_zero]
  rw [exec, execCombine_of_zero hz, State.complete_eq]

/-- Settles O26: COMBINE's closed form, on the length as a number. -/
theorem combineResultIsClosedForm : Obligations.CombineResultIsClosedForm := by
  intro s
  obtain ⟨t, ht⟩ := exec_is_next .combine s
  have hr := result_of_exec_combine ht
  refine ⟨t, ht, fun hz => ?nonzero, fun hz => result_of_exec_combine_of_zero hz ht⟩
  case nonzero => rw [hr, if_neg (mt s.len2_eq_zero_iff.mp hz), s.toNat_len2]

/-! ### The CRC-32 of a concatenation (R136) -/

/-- A bit step of the CRC-32 is a zero bit shifted in. -/
theorem crcBit_eq_gf2Apply_odd0 : crcBit = gf2Apply odd0 := funext fun v => (gf2Apply_odd0 v).symm

/-- A byte step of the CRC-32 adds the byte and shifts eight zero bits in. -/
theorem crcByte_eq_shiftBits (c : Word) (b : Byte) : crcByte c b = shiftBits 8 (c ^^^ b.setWidth 32) := by
  rw [crcByte, crcBit_eq_gf2Apply_odd0, shiftBits]

/-- A difference in the register before a message comes out shifted by the length of the message, whatever the message is. -/
theorem foldl_crcByte_xor (B : List Byte) (u v : Word) :
    B.foldl crcByte (u ^^^ v) = shiftBits (8 * B.length) u ^^^ B.foldl crcByte v := by
  induction B generalizing u v with
  | nil => rfl
  | cons b B ih =>
    have hbyte : crcByte (u ^^^ v) b = shiftBits 8 u ^^^ crcByte v b := by
      rw [crcByte_eq_shiftBits, crcByte_eq_shiftBits, BitVec.xor_assoc, shiftBits_xor]
    rw [List.foldl_cons, List.foldl_cons, hbyte, ih, shiftBits_shiftBits, List.length_cons, Nat.mul_succ]

/-- The register after `A` is `crc32 A` and the final XOR, so the CRC-32 of `A ++ B` is that of `B` with `crc32 A` shifted past
it added. -/
theorem crc32_append (A B : List Byte) : crc32 (A ++ B) = shiftBits (8 * B.length) (crc32 A) ^^^ crc32 B := by
  have hA : A.foldl crcByte 0xFFFFFFFF#32 = crc32 A ^^^ 0xFFFFFFFF#32 := by
    rw [crc32, BitVec.xor_assoc, BitVec.xor_self, BitVec.xor_zero]
  rw [crc32, List.foldl_append, hA, foldl_crcByte_xor, BitVec.xor_assoc, ← crc32]

/-- Settles O30: COMBINE's closed form is the CRC-32 of the concatenation; for an empty `B` both are `crc32 A`. -/
theorem combineObeysConcatenationLaw : Obligations.CombineObeysConcatenationLaw := by
  intro s A B hA hB hlen
  obtain ⟨t, ht, hnonzero, hzero⟩ := combineResultIsClosedForm s
  refine ⟨t, ht, ?_⟩
  by_cases hz : s.lengthNat = 0
  · have hnil : B = [] := List.eq_nil_of_length_eq_zero (hlen ▸ hz)
    rw [hzero hz, hA, hnil, List.append_nil]
  · rw [hnonzero hz, hA, hB, hlen, shiftsBy_oddPower, crc32_append]

end Sys2Proof.Machine
end

section
/-!
PROOFS. Errors and completion (spec 60_exceptions.md): a bus error changes nothing (O11), what sets CMDERR and OVR (O40) and that
one access raises at most one condition (O13), the codes of the conditions (O39), what a perform step writes (O31), and that the
machine goes on from every state that meets the engine's invariant (O36).
-/

namespace Sys2Proof.Machine

/-! ### Bus errors (R53, R154) -/

section
variable {addr size : Nat} {a : Access} {rest : List HostOp} {s : State}

/-- An access in the window of another width or alignment does not reach a register (R53, R154). -/
theorem reach_of_bad_form (hlo : Config.base ≤ addr) (hhi : addr < Config.base + 0x200) (hf : size ≠ 4 ∨ addr % 4 ≠ 0) :
    reach addr size = .error .busError := by
  have hwin : windowOffset addr = some (addr - Config.base) := (windowOffset_eq_some_iff ..).mpr (by omega)
  have hform : legalForm addr size = false := by
    rcases hf with h | h <;> simp [legalForm, h]
  exact reach_bad_form addr size (by rw [hwin, Option.isSome_some]) hform

/-- The step of an access that ends in a bus error: the access is counted and answered, and nothing else happens (R154, R156). -/
theorem step_of_busError (h : busAccess a (s.tick rest) = .error .busError) (hn : HostNext s (.access a) rest) :
    step s = .next (s.afterAccess rest .busError) := by
  rw [step_of_access hn.1 hn.2, hostAccess, h]
  rfl

end

/-- Settles O11: such an access reaches no register, so its fault is a bus error whatever the state is. -/
theorem busErrorChangesNothing : Obligations.BusErrorChangesNothing := by
  intro s rest addr size hlo hhi hf
  have hreach := reach_of_bad_form hlo hhi hf
  have hread (u : State) : busAccess (.read addr size) u = .error .busError := by rw [busAccess, hreach]; rfl
  have hwrite (v : Word) (u : State) : busAccess (.write addr size v) u = .error .busError := by rw [busAccess, hreach]; rfl
  exact ⟨hread s, fun v => hwrite v s, step_of_busError (hread _), fun v => step_of_busError (hwrite v _)⟩

/-! ### What sets an error bit (R152, R153, R155) -/

/-- A write to a named register sets CMDERR only as an illegal word to `CMD` while IDLE, and OVR only as a guarded write while
BUSY (R57 (a), R86). -/
theorem writeReg_sets_errorBits (r : Reg) (v : Word) (s : State) :
    (s.cmderr = false → (s.writeReg (some r) v).cmderr = true → r = .cmd ∧ s.phase = .idle ∧ ∀ i, decode v ≠ .ok i) ∧
    (s.ovr = false → (s.writeReg (some r) v).ovr = true → s.phase = .busy ∧ r.guarded = true) := by
  rcases writeReg_effect r v s with
    ⟨hb, hg, hw⟩ | ⟨-, -, -, hw⟩ | ⟨rfl, hi, hd, hw⟩ | ⟨-, hw⟩ | ⟨-, -, -, -, hc, ho⟩ | ⟨-, hw⟩
  · simp +contextual [hw, hb, hg]
  · simp +contextual [hw]
  · simp +contextual [hw, hi, hd]
  · simp +contextual [hw]
  · simp +contextual [hc, ho]
  · simp +contextual [hw]

/-- Settles O40: of the four things a step can do, only a write to a named register sets an error bit. -/
theorem errorBitsAreSetOnlyByMisuse : Obligations.ErrorBitsAreSetOnlyByMisuse := by
  intro s t h
  rcases step_effect h with
    ⟨-, i, hx⟩ | ⟨-, -, -, hc, ho, -, -⟩ | ⟨r, v, rest, hn, rfl⟩ | ⟨lost, rest, -, rfl⟩
  · obtain ⟨-, -, hc, ho⟩ := exec_control hx
    simp +contextual [hc, ho]
  · simp +contextual [hc, ho]
  · obtain ⟨hcmderr, hovr⟩ := writeReg_sets_errorBits r v (s.tick rest)
    refine ⟨fun h0 h1 => ?cmderr, fun h0 h1 => ?ovr⟩
    case cmderr =>
      obtain ⟨rfl, hi, hd⟩ := hcmderr h0 h1
      exact ⟨v, rest, hi, hd, hn⟩
    case ovr =>
      obtain ⟨hb, hg⟩ := hovr h0 h1
      obtain ⟨hs, hr⟩ := r.guarded_iff.mp hg
      exact ⟨r, v, rest, hb, hs, hr, hn⟩
  · simp

/-- Settles O13: only a write to a named register changes an error bit, and it is acknowledged; CMDERR is set only while IDLE and
OVR only while BUSY. -/
theorem oneConditionPerAccess : Obligations.OneConditionPerAccess := by
  intro s t a rest ⟨he, hi⟩ h
  obtain ⟨hcmderr, hovr⟩ := errorBitsAreSetOnlyByMisuse s t h
  refine ⟨fun herr => ?busError, fun hb h1 => ?busy, fun hidle h1 => ?idle⟩
  case busError =>
    rcases hostAccess_effect (step_of_access he hi ▸ h) with ⟨-, -, -, hc, ho, -, -⟩ | ⟨r, v, -, rfl⟩
    · exact ⟨hc, ho⟩
    · simp at herr
  case busy =>
    by_contra h0
    obtain ⟨v, rest', hidle, -⟩ := hcmderr (Bool.eq_false_of_not_eq_true h0) h1
    simp [hb] at hidle
  case idle =>
    by_contra h0
    obtain ⟨r, v, rest', hb, -⟩ := hovr (Bool.eq_false_of_not_eq_true h0) h1
    simp [hidle] at hb

/-! ### The conditions' codes (R151) -/

/-- Raising a condition sets the `STATUS` bit at the position of its code and no other (R151). -/
theorem State.statusWord_raise (s : State) {c : Condition} {k : Nat} (hk : c.code = some k) :
    (s.raise c).statusWord = s.statusWord ||| (1#32 <<< k) := by
  cases c with
  | busError => cases hk
  | cmderr | ovr =>
    obtain rfl := Option.some.inj hk
    simp only [State.statusWord, State.busy, State.raise]
    generalize s.ovr = o, s.cmderr = e, s.done = d, (s.phase == .busy) = b
    revert o e d b
    decide

/-- Raising a condition touches no register, no bank, not the phase and not `PENDING` (R151, R156). -/
theorem State.raise_frame (s : State) (c : Condition) : SameOperands s (s.raise c) ∧ SameResults s (s.raise c) ∧
    (s.raise c).phase = s.phase ∧ (s.raise c).pending = s.pending := by
  cases c with
  | cmderr | ovr | busError => exact ⟨⟨rfl, rfl, rfl, rfl, rfl⟩, ⟨rfl, rfl, rfl⟩, rfl, rfl⟩

/-- Settles O39: a condition with a code sets the bit of its code, and raising it does no more. -/
theorem conditionCodesAreStatusBits : Obligations.ConditionCodesAreStatusBits :=
  fun s => ⟨rfl, rfl, rfl, s.raise_busError, fun c _ hk => ⟨s.statusWord_raise hk, s.raise_frame c⟩⟩

/-! ### What a perform step writes (R34, R150) -/

section
variable {i : Instr} {s t : State}

/-- The states a perform step can leave, before completion: `RESULT` written by MVMUL or COMBINE, a bank written by the MSQR or
MINIT that names it, or both banks and `RESULT` written by COMBINE with a non-zero length (R34). -/
theorem exec_cases (h : exec i s = .next t) :
    (∃ w, ((∃ b, i = .mvmul b) ∨ i = .combine) ∧ t = ({ s with result := w }).complete) ∨
    (∃ d m, ((∃ b, i = .msqr d b) ∨ i = .minit d) ∧ t = (s.setBank d m).complete) ∨
    (∃ r, i = .combine ∧ s.lengthNat ≠ 0 ∧ t = (s.takeCombine r).complete) := by
  cases i with
  | mvmul b => exact .inl ⟨_, .inl ⟨b, rfl⟩, (Host.Outcome.next.inj h).symm⟩
  | msqr d b => exact .inr (.inl ⟨d, _, .inl ⟨b, rfl⟩, (Host.Outcome.next.inj h).symm⟩)
  | minit d => exact .inr (.inl ⟨d, _, .inr rfl, (Host.Outcome.next.inj h).symm⟩)
  | combine =>
    rw [exec] at h
    by_cases hz : s.len2 = 0#64
    · rw [execCombine_of_zero hz] at h
      exact .inl ⟨_, .inr rfl, (Host.Outcome.next.inj h).symm⟩
    · rw [execCombine_of_ne_zero hz] at h
      exact .inr (.inr ⟨_, rfl, mt s.len2_eq_zero_iff.mpr hz, (Host.Outcome.next.inj h).symm⟩)

/-- A perform step reads the operands and writes none of them, nor `PENDING` or the model's fields (R34). -/
theorem exec_frame (h : exec i s = .next t) : SameOperands s t ∧ t.pending = s.pending ∧ t.wait = s.wait ∧
    t.draws = s.draws ∧ t.inputs = s.inputs ∧ t.responses = s.responses := by
  rcases exec_cases h with ⟨w, -, rfl⟩ | ⟨d, m, -, rfl⟩ | ⟨r, -, -, rfl⟩ <;> simp [SameOperands]

/-- Only MVMUL and COMBINE write `RESULT` (R34). -/
theorem exec_result (h : exec i s = .next t) : t.result = s.result ∨ (∃ b, i = .mvmul b) ∨ i = .combine := by
  rcases exec_cases h with ⟨w, hi, -⟩ | ⟨d, m, -, rfl⟩ | ⟨r, hi, -, -⟩
  · exact .inr hi
  · exact .inl (by simp)
  · exact .inr (.inr hi)

/-- Only an MSQR or MINIT that names it, or COMBINE with a non-zero length, writes a bank (R34). -/
theorem exec_bank (h : exec i s = .next t) (b : Bank) :
    t.bank b = s.bank b ∨ (∃ b', i = .msqr b b') ∨ i = .minit b ∨ (i = .combine ∧ s.lengthNat ≠ 0) := by
  rcases exec_cases h with ⟨w, -, rfl⟩ | ⟨d, m, hi, rfl⟩ | ⟨r, hi, hz, -⟩
  · exact .inl (by cases b <;> simp)
  · rcases eq_or_ne b d with rfl | hne
    · exact .inr (hi.imp_right .inl)
    · exact .inl (by rw [State.complete_bank, State.bank_setBank_of_ne s d b m hne])
  · exact .inr (.inr (.inr ⟨hi, hz⟩))

end

/-- Settles O31: every command completes, and its write set and frame are read off the states it can leave. -/
theorem engineWritesOnlyItsDestinations : Obligations.EngineWritesOnlyItsDestinations := by
  intro i s
  obtain ⟨t, ht⟩ := exec_is_next i s
  obtain ⟨hphase, hdone, hcmderr, hovr⟩ := exec_control ht
  obtain ⟨hops, hpending, hwait, hdraws, hinputs, hresponses⟩ := exec_frame ht
  exact ⟨t, ht, hphase, hdone, hops, hcmderr, hovr, hpending, hwait, hdraws, hinputs, hresponses, exec_result ht, exec_bank ht⟩

/-! ### Progress (R150, R156) -/

/-- On the engine's turn the invariant holds a command in `PENDING` (R86). -/
theorem State.pendingInstr_of_engineInv {s : State} (hinv : s.engineInv = true) (he : s.engineTurn = true) :
    ∃ i, s.pendingInstr = some i := by
  obtain ⟨hb, -⟩ := s.engineTurn_iff_busy_and_due.mp he
  obtain ⟨hp, -⟩ := s.engineInv_iff.mp hinv hb
  exact Option.isSome_iff_exists.mp hp

/-- From the invariant a step goes on, unless the host's next operation is an access outside the window (R50, R150, R156). -/
theorem step_is_next_or_outside {s : State} (hinv : s.engineInv = true) : (∃ t, step s = .next t) ∨
    ∃ a rest, HostNext s (.access a) rest ∧ windowOffset a.addr = none := by
  cases he : s.engineTurn with
  | true =>
    obtain ⟨i, hi⟩ := s.pendingInstr_of_engineInv hinv he
    rw [step_of_engineTurn he hi]
    exact .inl (exec_is_next i s)
  | false =>
    cases hi : s.inputs with
    | nil => exact .inl ⟨_, step_of_nil he hi⟩
    | cons op rest =>
      cases op with
      | waitIdle => exact .inl ⟨_, (step_of_waitIdle he hi).trans (hostPoll_eq rest s)⟩
      | reset lost => exact .inl ⟨_, step_of_reset he hi⟩
      | access a =>
        cases hw : windowOffset a.addr with
        | some off => exact .inl (step_of_access he hi ▸ hostAccess_of_inside hw rest s)
        | none => exact .inr ⟨a, rest, ⟨he, hi⟩, hw⟩

/-- An access keeps to the window when the block decodes its address (R50). -/
theorem HostOp.inWindow_access (a : Access) : (HostOp.access a).inWindow = (windowOffset a.addr).isSome := by
  cases a <;> rfl

/-- Settles O36: a step goes on, or it is an access outside the window, which faults. -/
theorem invariantStatesNeverRefuse : Obligations.InvariantStatesNeverRefuse := by
  intro s hinv
  rcases step_is_next_or_outside hinv with ⟨t, ht⟩ | ⟨a, rest, ⟨he, hi⟩, hw⟩
  · exact ⟨fun r => by simp [ht], fun _ => ⟨t, ht⟩⟩
  · refine ⟨fun r => ?refused, fun hin => ?window⟩
    case refused => simp [step_of_access he hi, hostAccess_of_outside hw]
    case window => simp [hi, HostOp.inWindow_access, hw] at hin

end Sys2Proof.Machine
end

section
/-!
PROOFS. Reset and hazards (spec 70_reset_and_hazards.md): what a reset leaves (O16), how the BUSY hazard is detected (O41), and the
order of a perform step and the host's accesses: both orders with the same results (O43), and the perform step within `LAT`
accesses (O44).
-/

namespace Sys2Proof.Machine

/-! ### Reset (R180, R181) -/

/-- `STATUS` reads 0 after reset (R33). -/
@[simp] theorem State.afterReset_statusWord (d : Nat) (l : List HostOp) (q : List Response) :
    (State.afterReset d l q).statusWord = 0#32 := by
  have hbusy : (State.afterReset d l q).busy = false := (State.not_busy_iff _).mpr (State.afterReset_phase ..)
  simp [State.statusWord_eq_ofNat, hbusy]

/-- Settles O16: the step is the reset event, whose fields are those of the state after reset. -/
theorem resetEventGivesResetValues : Obligations.ResetEventGivesResetValues := by
  intro s lost rest ⟨he, hi⟩
  have hrows (n : Fin 32) :
      (State.afterReset s.draws rest s.responses).mat0[n] = Config.freeWord (s.draws + n.val) ∧
      (State.afterReset s.draws rest s.responses).mat1[n] = Config.freeWord (s.draws + 32 + n.val) :=
    ⟨State.afterReset_mat0_row .., State.afterReset_mat1_row ..⟩
  refine ⟨_, step_of_reset he hi, ?_⟩
  simp [hrows, State.engineTurn_of_idle]

/-! ### The BUSY hazard (R184) -/

section
variable {off : Nat} (hlt : off < 0x200)
include hlt

/-- A read breaks the hazard rule when the engine owns the register at its offset (R184). -/
theorem Access.breaksBusyHazard_read (size : Nat) :
    (Access.read (Config.base + off) size).breaksBusyHazard = (regAt off).any Reg.engineOwned := by
  rw [Access.breaksBusyHazard, windowOffset_base_add off hlt, Option.bind_some]

/-- A write breaks the hazard rule when the register at its offset is guarded (R184). -/
theorem Access.breaksBusyHazard_write (size : Nat) (v : Word) :
    (Access.write (Config.base + off) size v).breaksBusyHazard = (regAt off).any Reg.guarded := by
  rw [Access.breaksBusyHazard, windowOffset_base_add off hlt, Option.bind_some]

end

/-- A read of what the engine does not own leaves the state as it was (R56, R57 (c)). -/
theorem State.readReg_state_of_not_owned (s : State) {r : Option Reg} (h : r.any Reg.engineOwned = false) :
    (s.readReg r).2 = s := by
  cases r with
  | none => rfl
  | some r =>
    have ho : r.engineOwned = false := h
    simp [State.readReg, ho]

/-- A write that nothing guards draws no free value and sets no OVR (R57 (d)). -/
theorem State.writeReg_of_not_guarded (s : State) {r : Option Reg} (h : r.any Reg.guarded = false) (v : Word) :
    ((s.writeReg r v).ovr = true → s.ovr = true) ∧ (s.writeReg r v).draws = s.draws := by
  cases r with
  | none => exact ⟨id, rfl⟩
  | some r =>
    have hg : r.guarded = false := h
    rw [State.writeReg_of_unguarded (.inr hg)]
    cases r with
    | status => simp +contextual [State.writeIdle]
    | result => exact ⟨id, rfl⟩
    | cmd | crc1 | crc2 | len2Lo | len2Hi | vec | row b n => cases hg

/-- A host access that keeps the hazard rule draws no free value and sets no OVR (R184). -/
theorem hostAccess_of_hazard_kept {a : Access} {rest : List HostOp} {s t : State} (hk : a.breaksBusyHazard = false)
    (h : hostAccess a rest s = .next t) : (t.ovr = true → s.ovr = true) ∧ t.draws = s.draws := by
  rcases hostAccess_cases h with rfl | ⟨addr, size, off, rfl, hr, rfl⟩ | ⟨addr, size, off, v, rfl, hr, rfl⟩
  · exact ⟨id, rfl⟩
  · obtain ⟨-, rfl, hlt, -⟩ := reach_ok hr
    rw [Access.breaksBusyHazard_read hlt] at hk
    rw [State.readReg_state_of_not_owned _ hk]
    exact ⟨id, rfl⟩
  · obtain ⟨-, rfl, hlt, -⟩ := reach_ok hr
    rw [Access.breaksBusyHazard_write hlt] at hk
    exact (s.tick rest).writeReg_of_not_guarded hk v

/-- A legal write that breaks the hazard rule is a write of a guarded register (R52, R184). -/
theorem write_of_hazard_broken {addr : Nat} {v : Word} (h4 : addr % 4 = 0)
    (hk : (Access.write addr 4 v).breaksBusyHazard = true) :
    ∃ r : Reg, r.guarded = true ∧ HostOp.access (.write addr 4 v) = writeOp r v := by
  cases hw : windowOffset addr with
  | none => simp [Access.breaksBusyHazard, hw] at hk
  | some off =>
    obtain ⟨rfl, hlt⟩ := (windowOffset_eq_some_iff addr off).mp hw
    have hoff : off % 4 = 0 := by
      have := base_mod_four
      omega
    rw [Access.breaksBusyHazard_write hlt] at hk
    obtain ⟨r, hr, hg⟩ := (Option.any_eq_true ..).mp hk
    exact ⟨r, hg, by rw [writeOp, Reg.addr, offset_of_regAt hr hlt hoff]⟩

/-- Settles O41: a kept rule is a matter of the access alone, and a legal write that breaks it is dropped with OVR. -/
theorem busyHazardIsDetected : Obligations.BusyHazardIsDetected := by
  intro s a rest hb ⟨he, hi⟩
  refine ⟨fun t hk h => ?kept, fun addr v ha h4 hk => ?broken⟩
  case kept => exact hostAccess_of_hazard_kept hk (step_of_access he hi ▸ h)
  case broken =>
    subst ha
    obtain ⟨r, hg, hop⟩ := write_of_hazard_broken h4 hk
    exact ⟨_, step_of_writeOp_guarded hb hg ⟨he, hop ▸ hi⟩, rfl, ⟨rfl, rfl, rfl, rfl, rfl⟩, ⟨rfl, rfl, rfl⟩, rfl⟩

/-! ### Both orders of a perform step and a host write (R60, R187) -/

/-- A bank is a part of the results. -/
theorem State.bank_congr {s t : State} (h : SameResults s t) (b : Bank) : t.bank b = s.bank b := by
  obtain ⟨h0, h1, -⟩ := h
  cases b <;> simp [h0, h1]

/-- A write of one bank keeps the agreement on the banks and `RESULT`. -/
theorem State.setBank_sameResults {s t : State} (h : SameResults s t) (b : Bank) (m : Mat) :
    SameResults (s.setBank b m) (t.setBank b m) := by
  obtain ⟨h0, h1, hr⟩ := h
  cases b <;> simp [SameResults, h0, h1, hr]

/-- COMBINE with a zero length writes no bank (R132). -/
theorem bank_of_exec_combine_of_zero {s t : State} (hz : s.lengthNat = 0) (h : exec .combine s = .next t) (b : Bank) :
    t.bank b = s.bank b := by simpa [hz] using exec_bank h b

/-- A command performed on the same operands, banks and `RESULT` leaves the same banks and `RESULT`, whatever else differs (R12). -/
theorem exec_sameResults {i : Instr} {s t s' t' : State} (ho : SameOperands s t) (hr : SameResults s t)
    (hs : exec i s = .next s') (ht : exec i t = .next t') : SameResults s' t' := by
  obtain ⟨hcrc1, hcrc2, hlo, hhi, hvec⟩ := ho
  have hbank := State.bank_congr hr
  cases i with
  | mvmul b =>
    obtain ⟨h0, h1, -⟩ := hr
    have hres : t'.result = s'.result := by
      rw [result_of_exec_mvmul hs, result_of_exec_mvmul ht, hbank b, hvec]
    obtain rfl := Host.Outcome.next.inj hs
    obtain rfl := Host.Outcome.next.inj ht
    exact ⟨by simp [h0], by simp [h1], hres⟩
  | msqr d b =>
    obtain rfl := Host.Outcome.next.inj hs
    obtain rfl := Host.Outcome.next.inj ht
    simpa [SameResults, hbank b] using State.setBank_sameResults hr d (gf2Square (s.bank b))
  | minit d =>
    obtain rfl := Host.Outcome.next.inj hs
    obtain rfl := Host.Outcome.next.inj ht
    simpa [SameResults] using State.setBank_sameResults hr d odd0
  | combine =>
    have hn : t.lengthNat = s.lengthNat := by simp [State.lengthNat, hlo, hhi]
    obtain ⟨hres, hbanks⟩ := exec_combine_congr hcrc1 hcrc2 hn ht hs
    by_cases hz : t.lengthNat = 0
    · have hkept (b : Bank) : t'.bank b = s'.bank b := by
        rw [bank_of_exec_combine_of_zero hz ht, bank_of_exec_combine_of_zero (hn ▸ hz) hs, hbank b]
      exact ⟨by simpa using hkept .mat0, by simpa using hkept .mat1, hres⟩
    · obtain ⟨h0, h1⟩ := hbanks hz
      exact ⟨h0, h1, hres⟩

section
variable {s : State} {i : Instr} {v : Word} {rest : List HostOp}
variable (hb : s.phase = .busy) (hd : decode s.pending = .ok i) (hi : s.inputs = writeOp .crc1 v :: rest)
include hb hd hi

/-- With no access awaited the command is performed, and the write then lands (R60, R187). -/
theorem performed_then_written (hw : s.wait = 0) :
    ∃ a, exec i s = .next a ∧ step s = .next a ∧ step a = .next { a.afterAccess rest .ack with crc1 := v } := by
  obtain ⟨a, ha⟩ := exec_is_next i s
  obtain ⟨hidle, -⟩ := exec_control ha
  have hturn : s.engineTurn = true := s.engineTurn_iff_busy_and_due.mpr ⟨hb, .inl hw⟩
  have hnext : HostNext a (writeOp .crc1 v) rest := ⟨a.engineTurn_of_idle hidle, (exec_inputs ha).trans hi⟩
  exact ⟨a, ha, (step_eq_exec_of_decode hturn hd).trans ha, step_of_writeOp_unguarded (.inl hidle) hnext⟩

/-- With one access awaited the write is dropped with OVR, and the command performed next, on operands, banks and `RESULT` that are
as they were (R57, R60, R187). -/
theorem dropped_then_performed (hw : s.wait = 1) : ∃ d c, SameOperands s d ∧ SameResults s d ∧ d.ovr = true ∧
    exec i d = .next c ∧ RunsTo 2 s c := by
  have hnext : HostNext s (writeOp .crc1 v) rest := ⟨by simp [State.engineTurn, hw, hi], hi⟩
  obtain ⟨d, hdrop, hops, hres, hp, hovr, hdb, hdw⟩ : ∃ d, step s = .next d ∧ SameOperands s d ∧ SameResults s d ∧
      d.pending = s.pending ∧ d.ovr = true ∧ d.phase = .busy ∧ d.wait = s.wait - 1 :=
    ⟨_, step_of_writeOp_guarded hb rfl hnext, ⟨rfl, rfl, rfl, rfl, rfl⟩, ⟨rfl, rfl, rfl⟩, rfl, rfl, hb, rfl⟩
  have hturn : d.engineTurn = true := d.engineTurn_iff_busy_and_due.mpr ⟨hdb, .inl (by omega)⟩
  obtain ⟨c, hc⟩ := exec_is_next i d
  have hperform : step d = .next c := (step_eq_exec_of_decode hturn (hp ▸ hd)).trans hc
  exact ⟨d, c, hops, hres, hovr, hc, run_succ_eq_next_iff.mpr ⟨d, hdrop, run_succ_eq_next_iff.mpr ⟨c, hperform, rfl⟩⟩⟩

end

/-- Settles O43: the two orders perform the command on the same operands, so with the same results. -/
theorem eitherOrderOfPerformAndWrite : Obligations.EitherOrderOfPerformAndWrite := by
  intro s i v rest hb hd hi
  obtain ⟨p, hp⟩ := exec_is_next i s
  obtain ⟨a, ha, hstep, hwrite⟩ := performed_then_written (s := { s with wait := 0 }) hb hd hi rfl
  obtain ⟨d, c, hops, hres, hdovr, hc, hrun⟩ := dropped_then_performed (s := { s with wait := 1 }) hb hd hi rfl
  obtain ⟨haidle, -, -, haovr⟩ := exec_control ha
  obtain ⟨hcidle, -, -, hcovr⟩ := exec_control hc
  obtain ⟨⟨hcrc1, -⟩, -⟩ := exec_frame hc
  have hpa : SameResults p a :=
    exec_sameResults (s := s) (t := { s with wait := 0 }) ⟨rfl, rfl, rfl, rfl, rfl⟩ ⟨rfl, rfl, rfl⟩ hp ha
  have hpc : SameResults p c := exec_sameResults (s := s) hops hres hp hc
  exact ⟨p, a, _, c, hp, hstep, hwrite, hrun, haidle, hcidle, hpa, hpc, rfl, haovr, hcrc1.trans hops.1, hcovr.trans hdovr⟩

/-! ### An accepted command is performed (R188) -/

/-- The command of `s` is still pending in `u`, on the operands, banks and `RESULT` it was accepted with, and the host's
operations to come are among those of `s` (R30, R57). -/
def StillPending (s u : State) : Prop :=
  u.phase = .busy ∧ u.pending = s.pending ∧ SameOperands s u ∧ SameResults s u ∧ u.inputs <:+ s.inputs

/-- A BUSY block's command is pending. -/
theorem StillPending.refl {s : State} (hb : s.phase = .busy) : StillPending s s :=
  ⟨hb, rfl, ⟨rfl, rfl, rfl, rfl, rfl⟩, ⟨rfl, rfl, rfl⟩, List.suffix_rfl⟩

/-- A command that stays pending over two runs stays pending over both. -/
theorem StillPending.trans {s t u : State} (hst : StillPending s t) (htu : StillPending t u) : StillPending s u := by
  obtain ⟨-, hp, ⟨h1, h2, h3, h4, h5⟩, ⟨h6, h7, h8⟩, hin⟩ := hst
  obtain ⟨hb, hp', ⟨h1', h2', h3', h4', h5'⟩, ⟨h6', h7', h8'⟩, hin'⟩ := htu
  exact ⟨hb, hp'.trans hp, ⟨h1'.trans h1, h2'.trans h2, h3'.trans h3, h4'.trans h4, h5'.trans h5⟩,
    ⟨h6'.trans h6, h7'.trans h7, h8'.trans h8⟩, hin'.trans hin⟩

/-- A step that keeps the block BUSY and takes no operation but from the head of the host's list leaves the command pending. -/
theorem StillPending.of_step {s t : State} (hb : s.phase = .busy) (h : step s = .next t) (htb : t.phase = .busy)
    (hin : t.inputs <:+ s.inputs) : StillPending s t := by
  obtain ⟨hops, hres, hp⟩ := busyFreezesOperands s t hb h htb
  exact ⟨htb, hp, hops, hres, hin⟩

/-- While BUSY a host access that is answered keeps the block BUSY, and is counted (R57, R187). -/
theorem hostAccess_of_busy {a : Access} {rest : List HostOp} {s t : State} (hb : s.phase = .busy)
    (h : hostAccess a rest s = .next t) : t.phase = .busy ∧ t.inputs = rest ∧ t.wait = s.wait - 1 := by
  rcases hostAccess_cases h with rfl | ⟨_, _, off, -, -, rfl⟩ | ⟨_, _, off, v, -, -, rfl⟩
  · exact ⟨hb, rfl, rfl⟩
  · rcases readReg_cases (regAt off) (s.tick rest) with hr | ⟨-, hr⟩ <;> rw [hr] <;> exact ⟨hb, rfl, rfl⟩
  · cases regAt off with
    | none => exact ⟨hb, rfl, rfl⟩
    | some r =>
      rcases writeReg_of_busy (s := s.tick rest) r v hb with hw | hw | hw <;> rw [hw] <;> exact ⟨hb, rfl, rfl⟩

/-- From a BUSY state with its host operations in the window: it is the engine's turn, or a reset comes next, or the step leaves
the command pending and one access fewer awaited (R57, R187). -/
theorem busy_step_cases {s : State} (hb : s.phase = .busy) (hin : ∀ op ∈ s.inputs, op.inWindow = true) :
    s.engineTurn = true ∨ (∃ lost rest, HostNext s (.reset lost) rest) ∨
    ∃ t, step s = .next t ∧ StillPending s t ∧ t.wait = s.wait - 1 := by
  cases he : s.engineTurn with
  | true => exact .inl rfl
  | false =>
    cases hi : s.inputs with
    | nil => simp [State.engineTurn, hb, hi] at he
    | cons op rest =>
      cases op with
      | reset lost => exact .inr (.inl ⟨lost, rest, he, hi⟩)
      | waitIdle =>
        have hpoll : step s = .next ((s.tick s.inputs).respond (.data s.statusWord)) := by
          rw [step_of_waitIdle he hi, hostPoll_eq, if_pos hb, ← hi]
        exact .inr (.inr ⟨_, hpoll, .of_step hb hpoll hb List.suffix_rfl, rfl⟩)
      | access a =>
        have hwin := hin (.access a) (by simp [hi])
        rw [HostOp.inWindow_access] at hwin
        obtain ⟨off, hoff⟩ := Option.isSome_iff_exists.mp hwin
        obtain ⟨t, ht⟩ := hostAccess_of_inside hoff rest s
        obtain ⟨htb, htin, hwait⟩ := hostAccess_of_busy hb ht
        have hstep : step s = .next t := (step_of_access he hi).trans ht
        have hsuffix : t.inputs <:+ s.inputs := by
          rw [htin, hi]
          exact List.suffix_cons _ _
        exact .inr (.inr ⟨t, hstep, .of_step hb hstep htb hsuffix, hwait⟩)

/-- Within the awaited number of steps the run reaches, with the command still pending, the engine's turn or a reset (R188). -/
theorem runsTo_turn_or_reset {s : State} (hb : s.phase = .busy) (hin : ∀ op ∈ s.inputs, op.inWindow = true) :
    ∃ k u, k ≤ s.wait ∧ RunsTo k s u ∧ StillPending s u ∧
      (u.engineTurn = true ∨ ∃ lost rest, HostNext u (.reset lost) rest) := by
  induction hw : s.wait generalizing s with
  | zero => exact ⟨0, s, Nat.le_refl 0, rfl, .refl hb, .inl (s.engineTurn_iff_busy_and_due.mpr ⟨hb, .inl hw⟩)⟩
  | succ n ih =>
    rcases busy_step_cases hb hin with he | hreset | ⟨t, hstep, hpend, hwait⟩
    · exact ⟨0, s, Nat.zero_le _, rfl, .refl hb, .inl he⟩
    · exact ⟨0, s, Nat.zero_le _, rfl, .refl hb, .inr hreset⟩
    · have ⟨htb, _, _, _, hsuffix⟩ := hpend
      obtain ⟨k, u, hk, hrun, hpend', hend⟩ := ih htb (fun op hop => hin op (hsuffix.mem hop)) (by omega)
      exact ⟨k + 1, u, Nat.succ_le_succ hk, run_succ_eq_next_iff.mpr ⟨t, hstep, hrun⟩, hpend.trans hpend', hend⟩

/-- Settles O44: the run reaches the engine's turn with the command still pending, or a reset comes first; each step that is
neither takes one from the awaited accesses. -/
theorem acceptedCommandIsPerformed : Obligations.AcceptedCommandIsPerformed := by
  intro s i hb hd hin
  obtain ⟨k, u, hk, hrun, ⟨hub, hp, hops, hres, hsuffix⟩, hend⟩ := runsTo_turn_or_reset hb hin
  refine ⟨k, u, hk, hrun, hub, hp, hops, hres, hsuffix, hend.imp_left fun he => ⟨he, ?performed⟩⟩
  case performed =>
    obtain ⟨t, ht⟩ := exec_is_next i u
    obtain ⟨hidle, hdone, -⟩ := exec_control ht
    exact ⟨t, ht, (step_eq_exec_of_decode he (hp ▸ hd)).trans ht, hidle, hdone⟩

end Sys2Proof.Machine
end
